-- ==== Sys2Proof/Word.lean ====
section
/-! DEFINITION. The plain types the whole model is written in: the data byte of a port access, the number of a
channel and of a slot. -/

namespace Sys2Proof

/-- One byte, the only unit a command moves (20_memory.md R75). -/
abbrev Byte := BitVec 8

/-- A channel number. Eighteen is `NCH` of V2; in V1 the channels 9 to 17 do not exist (00_scope.md R8, log entry 6). -/
abbrev Chan := Fin 18

/-- The two operators of a channel, `op[c][0]` and `op[c][1]` (00_scope.md R15, 10_state.md R25). -/
inductive Slot where
  /-- Slot 1, `s = 0`. -/
  | one
  /-- Slot 2, `s = 1`. -/
  | two
deriving DecidableEq, Repr

/-- The channel numbers in ascending order, the order of every `for` loop (00_scope.md R13). -/
def allChans : List Chan := [0, 1, 2, 3, 4, 5, 6, 7, 8, 9, 10, 11, 12, 13, 14, 15, 16, 17]

end Sys2Proof
end

