-- ==== Sys2Proof/Config.lean ====
section
/-! DEFINITION. The configuration of an instance: its variant, its rate configuration, its lookup tables and the open
parameters of 93_implementation_defined.md section 2. 10_state.md R41 says none of it is state; an instance carries it
unchanged (log entry 1). The contents stand in Machine/Tables.lean. -/

namespace Sys2Proof

/-- `VARIANT` (00_scope.md R2). -/
inductive Variant where
  /-- The 9-voice, 2-operator generation. -/
  | v1
  /-- The 18-voice, 2-or-4-operator generation. -/
  | v2
deriving DecidableEq, Repr

/-- The rate configuration (00_scope.md R9). `FREQBASE` is the exact rational `freqNum / freqDen`, and
`fn_tab(i) = floor(i * 4096 * FREQBASE)`; no relation among the constants is assumed (log entry 12). -/
structure Rates where
  freqNum  : Nat
  freqDen  : Nat
  /-- `LFO_AM_INC` -/
  lfoAmInc : BitVec 32
  /-- `LFO_PM_INC` -/
  lfoPmInc : BitVec 32
  /-- `NOISE_F` -/
  noiseF   : BitVec 32
  /-- `EG_ADD` -/
  egAdd    : BitVec 32
  /-- `EG_OVF` -/
  egOvf    : BitVec 32
deriving DecidableEq, Repr

/-- The lookup tables (00_scope.md R10), each a field in rows as the spec prints them; `KSL_SHIFT`, an open parameter of
its own, is `Config.kslShift`. -/
structure Tables where
  /-- `EXP`, 16 rows of 16 (R131). -/
  exp        : List (List Nat)
  /-- `LOGSIN[0..1023]`, 64 rows of 16 (R133). The synthesis rules reach it through `WAVE` alone. -/
  logsin     : List (List Nat)
  /-- `WAVE`, for each waveform its 1024 entries in 64 rows of 16 (R134 to R141). -/
  wave       : List (List (List Nat))
  /-- `MUL2` (R143). -/
  mul2       : List Nat
  /-- `KSL_TAB`, 8 rows of 16, one for each block (R144). -/
  ksl        : List (List Nat)
  /-- `SL_EFF` (R146). -/
  slEff      : List Nat
  /-- `EG_INC`, 15 rows of 8 (R147). -/
  egInc      : List (List Nat)
  /-- `RATE_SHIFT`, 6 rows of 16 (R148). -/
  rateShift  : List (List Nat)
  /-- `RATE_SELECT`, 6 rows of 16 (R149). -/
  rateSelect : List (List Nat)
  /-- `LFO_AM_TAB`, 210 entries in rows of 16 (R151). -/
  lfoAm      : List (List Nat)
  /-- `LFO_PM_TAB`, 16 rows of 8, row `2*f + d` (R152). -/
  lfoPm      : List (List Int)
deriving DecidableEq, Repr

/-- The configuration of an instance. -/
structure Config where
  variant       : Variant
  rates         : Rates
  tables        : Tables
  /-- `KSL_SHIFT`, indexed by the `KSL` field (40_tables.md R145). -/
  kslShift      : List Nat
  /-- `SLOT1_DELAYED` (43_operator_output.md R217). -/
  slot1Delayed  : Bool
  /-- `HAS_CSM` (60_exceptions.md R369). -/
  hasCsm        : Bool
  /-- `HAS_WSE` (47_register_writes.md R304). -/
  hasWse        : Bool
  /-- `STATUS_SHOWS_ST` (60_exceptions.md R362). -/
  statusShowsSt : Bool
deriving DecidableEq, Repr

end Sys2Proof
end

