-- ==== Sys2Proof/Syntax.lean ====
section
/-! DEFINITION. The instructions of FMCORE: the host commands of 30_encoding.md R100 and the register-write
operations of R107, one constructor for each mnemonic of the opcode table, and the words they are written in (R102). -/

namespace Sys2Proof

/-- The operator `op[ch][slot]` that an operator register names (30_encoding.md R104). -/
structure OpRef where
  ch   : Chan
  slot : Slot
deriving DecidableEq, Repr

/-- The instructions. Operands are the fields of the data byte (30_encoding.md R105, R106), already taken apart. -/
inductive Instr where
  /-- `WRA v`: address-port write, bank 0. -/
  | wra (v : Byte)
  /-- `WRA2 v`: address-port write, bank 1 (V2). -/
  | wra2 (v : Byte)
  /-- `WRD v`: data-port write. -/
  | wrd (v : Byte)
  /-- `RD p`: read port `p`. -/
  | rd (p : BitVec 2)
  /-- `TEXP 0`: timer 1 has expired. -/
  | texp0
  /-- `TEXP 1`: timer 2 has expired. -/
  | texp1
  /-- `TICK`: one native sample period passes. -/
  | tick
  /-- `PEAKCLR`: clear the peak registers. -/
  | peakclr
  /-- `RESET`. -/
  | reset
  /-- `TEST`, bank 0 `0x01`. -/
  | test (wse : Bool)
  /-- `TIMER1`, bank 0 `0x02`. -/
  | timer1 (t1 : Byte)
  /-- `TIMER2`, bank 0 `0x03`. -/
  | timer2 (t2 : Byte)
  /-- `TCTL`, bank 0 `0x04`. -/
  | tctl (rst mt1 mt2 st2 st1 : Bool)
  /-- `MODE`, bank 0 `0x08`. -/
  | mode (csm nts : Bool)
  /-- `FOUROP`, bank 1 `0x04` (V2). -/
  | fourop (ext : BitVec 6)
  /-- `NEWMODE`, bank 1 `0x05` (V2). -/
  | newmode (new : Bool)
  /-- `RHYTHM`, bank 0 `0xBD`. -/
  | rhythm (dam dvb rhy bd sd tom tc hh : Bool)
  /-- `OPCHAR`, `0x20 + off`. -/
  | opchar (o : OpRef) (am vib egt ksr : Bool) (mult : BitVec 4)
  /-- `OPLEVEL`, `0x40 + off`. -/
  | oplevel (o : OpRef) (ksl : BitVec 2) (tl : BitVec 6)
  /-- `OPAD`, `0x60 + off`. -/
  | opad (o : OpRef) (ar dr : BitVec 4)
  /-- `OPSR`, `0x80 + off`. -/
  | opsr (o : OpRef) (sl rr : BitVec 4)
  /-- `OPWAVE`, `0xE0 + off`. -/
  | opwave (o : OpRef) (ws : BitVec 3)
  /-- `FNLO`, `0xA0 + n`. -/
  | fnlo (c : Chan) (fnumLo : Byte)
  /-- `KONBLK`, `0xB0 + n`. -/
  | konblk (c : Chan) (kon : Bool) (block : BitVec 3) (fnumHi : BitVec 2)
  /-- `FBCON`, `0xC0 + n` and its second place `0xD0 + n`. -/
  | fbcon (c : Chan) (chb cha : Bool) (fb : BitVec 3) (con : Bool)
deriving DecidableEq, Repr

/-- The five format-E commands, distinguished by name only (30_encoding.md R102). -/
inductive HostEvent where
  | texp0 | texp1 | tick | peakclr | reset
deriving DecidableEq, Repr

/-- What the host issues, one at a time (30_encoding.md R100): a port transaction or an event. -/
inductive Command where
  /-- A format-P word: `rd` in bit 10, the port in bits 9:8, the data byte in bits 7:0. -/
  | port (w : BitVec 11)
  /-- A format-E event. -/
  | event (e : HostEvent)
deriving DecidableEq, Repr

/-- An instruction in one of the three formats of 30_encoding.md R102. -/
inductive Encoded where
  /-- Format P, 11 bits. -/
  | p (w : BitVec 11)
  /-- Format R, 17 bits: the bank in bit 16, the register number in bits 15:8, the data byte in bits 7:0. -/
  | r (w : BitVec 17)
  /-- Format E, no bits. -/
  | e (ev : HostEvent)
deriving DecidableEq, Repr

end Sys2Proof
end

