-- ==== Sys2Proof/Decode.lean ====
section
/-! DEFINITION. The decoder of the three formats (30_encoding.md R102 to R111), and after it the encoder. A data write
is decoded twice: as a format-P word, and again as the format-R word made of the latched address and the data byte. -/

namespace Sys2Proof

/-- Why a format-R word is no register write. Neither is an error of the hardware: the data write that forms such a
word changes nothing (47_register_writes.md R292). -/
inductive DecodeRefusal where
  /-- The location is not assigned (30_encoding.md R110). -/
  | reservedLocation
  /-- A bank-1 word in V1, whose bank bit is always 0 (30_encoding.md R102, R103). -/
  | noBankOne
deriving DecidableEq, Repr

/-- The five groups of operator registers (30_encoding.md R105, R107). -/
inductive OpReg where
  | opchar | oplevel | opad | opsr | opwave
deriving DecidableEq, Repr

/-- A defined location of the register space (30_encoding.md R105, R106). -/
inductive Loc where
  | test | timer1 | timer2 | tctl | mode | fourop | newmode | rhythm
  | opReg (g : OpReg) (o : OpRef)
  | fnlo (c : Chan)
  | konblk (c : Chan)
  | fbcon (c : Chan)
deriving DecidableEq, Repr

/-! ### Decoding a register location -/

/-- The channel of number `n` in a bank: `c = n + 9*bank`, for `n` in `0..8` (30_encoding.md R103). -/
def chanOf (bank : Bool) (n : Nat) : Option Chan :=
  if h : n < 9 then
    some (if bank then ⟨n + 9, by omega⟩ else ⟨n, by omega⟩)
  else none

/-- `SLOT_OF_OFFSET` with the bank (30_encoding.md R104): `c0 = 3*(off >> 3) + (off & 7) mod 3`, `s = (off & 7) div 3`,
and the holes select no operator. -/
def opOfOffset (bank : Bool) (off : BitVec 5) : Option OpRef :=
  let g := off.toNat / 8
  let k := off.toNat % 8
  if g < 3 ∧ k < 6 then
    (chanOf bank (3 * g + k % 3)).map fun c => { ch := c, slot := if k < 3 then .one else .two }
  else none

/-- An operator register of a group, or a hole (30_encoding.md R104, R110). -/
def decodeOpReg (g : OpReg) (bank : Bool) (a : Byte) : Except DecodeRefusal Loc :=
  match opOfOffset bank (a.extractLsb' 0 5) with
  | some o => .ok (.opReg g o)
  | none => .error .reservedLocation

/-- A channel register, or one of the numbers 9 to 15 (30_encoding.md R107, R110). -/
def decodeChanReg (mk : Chan → Loc) (bank : Bool) (a : Byte) : Except DecodeRefusal Loc :=
  match chanOf bank (a.extractLsb' 0 4).toNat with
  | some c => .ok (mk c)
  | none => .error .reservedLocation

/-- The global registers of bank 0 below `0x20` (30_encoding.md R106, R107). -/
def decodeGlobal0 (a : Byte) : Except DecodeRefusal Loc :=
  if a = 0x01 then .ok .test
  else if a = 0x02 then .ok .timer1
  else if a = 0x03 then .ok .timer2
  else if a = 0x04 then .ok .tctl
  else if a = 0x08 then .ok .mode
  else .error .reservedLocation

/-- The global registers of bank 1 below `0x20` (30_encoding.md R106, R107). -/
def decodeGlobal1 (a : Byte) : Except DecodeRefusal Loc :=
  if a = 0x04 then .ok .fourop
  else if a = 0x05 then .ok .newmode
  else .error .reservedLocation

/-- The row `a[7:5] = 101`: `RHYTHM` at bank 0 `0xBD`, otherwise `FNLO` or `KONBLK` by bit 4 (30_encoding.md R107). -/
def decodeRow5 (bank : Bool) (a : Byte) : Except DecodeRefusal Loc :=
  if a = 0xBD then (if bank then .error .reservedLocation else .ok .rhythm)
  else if a.getLsbD 4 then decodeChanReg .konblk bank a
  else decodeChanReg .fnlo bank a

/-- The decode of `(bank, a)` by the variant, then by `a[7:5]` (30_encoding.md R107). In the row `110` bit 4 is not
decoded, so `0xD0..0xD8` are `0xC0..0xC8` again. -/
def decodeLoc (x : Variant) (bank : Bool) (a : Byte) : Except DecodeRefusal Loc :=
  if x = .v1 ∧ bank = true then .error .noBankOne
  else
    match (a.extractLsb' 5 3).toNat with
    | 0 => if bank then decodeGlobal1 a else decodeGlobal0 a
    | 1 => decodeOpReg .opchar bank a
    | 2 => decodeOpReg .oplevel bank a
    | 3 => decodeOpReg .opad bank a
    | 4 => decodeOpReg .opsr bank a
    | 5 => decodeRow5 bank a
    | 6 => decodeChanReg .fbcon bank a
    | _ => decodeOpReg .opwave bank a

/-! ### The fields of the data byte -/

/-- The register write of a location with a data byte: the fields as 30_encoding.md R105 and R106 place them, every
other bit ignored (R111). -/
def Loc.instr (l : Loc) (v : Byte) : Instr :=
  match l with
  | .test => .test (v.getLsbD 5)
  | .timer1 => .timer1 v
  | .timer2 => .timer2 v
  | .tctl => .tctl (v.getLsbD 7) (v.getLsbD 6) (v.getLsbD 5) (v.getLsbD 1) (v.getLsbD 0)
  | .mode => .mode (v.getLsbD 7) (v.getLsbD 6)
  | .fourop => .fourop (v.extractLsb' 0 6)
  | .newmode => .newmode (v.getLsbD 0)
  | .rhythm =>
    .rhythm (v.getLsbD 7) (v.getLsbD 6) (v.getLsbD 5) (v.getLsbD 4) (v.getLsbD 3) (v.getLsbD 2) (v.getLsbD 1)
      (v.getLsbD 0)
  | .opReg .opchar o =>
    .opchar o (v.getLsbD 7) (v.getLsbD 6) (v.getLsbD 5) (v.getLsbD 4) (v.extractLsb' 0 4)
  | .opReg .oplevel o => .oplevel o (v.extractLsb' 6 2) (v.extractLsb' 0 6)
  | .opReg .opad o => .opad o (v.extractLsb' 4 4) (v.extractLsb' 0 4)
  | .opReg .opsr o => .opsr o (v.extractLsb' 4 4) (v.extractLsb' 0 4)
  | .opReg .opwave o => .opwave o (v.extractLsb' 0 3)
  | .fnlo c => .fnlo c v
  | .konblk c => .konblk c (v.getLsbD 5) (v.extractLsb' 2 3) (v.extractLsb' 0 2)
  | .fbcon c => .fbcon c (v.getLsbD 5) (v.getLsbD 4) (v.extractLsb' 1 3) (v.getLsbD 0)

/-! ### Decoding the three formats -/

/-- Format R: the register write that a data write performs (30_encoding.md R102, R107). -/
def decodeR (x : Variant) (w : BitVec 17) : Except DecodeRefusal Instr :=
  (decodeLoc x (w.getLsbD 16) (w.extractLsb' 8 8)).map fun l => l.instr (w.extractLsb' 0 8)

/-- Format P: every word is a port transaction. V1 ignores the high bit of the port number (20_memory.md R72,
30_encoding.md R102); the data bits of a read are ignored. -/
def decodeP (x : Variant) (w : BitVec 11) : Instr :=
  let d : Byte := w.extractLsb' 0 8
  if w.getLsbD 10 then .rd (w.extractLsb' 8 2)
  else if w.getLsbD 8 then .wrd d
  else if w.getLsbD 9 then
    match x with
    | .v1 => .wra d
    | .v2 => .wra2 d
  else .wra d

/-- Format E (30_encoding.md R102). -/
def decodeE : HostEvent → Instr
  | .texp0 => .texp0
  | .texp1 => .texp1
  | .tick => .tick
  | .peakclr => .peakclr
  | .reset => .reset

/-- The decoder. -/
def decode (x : Variant) : Encoded → Except DecodeRefusal Instr
  | .p w => .ok (decodeP x w)
  | .r w => decodeR x w
  | .e ev => .ok (decodeE ev)

/-- The instruction a host command is. Every command is one (00_scope.md R6). -/
def Command.instr (x : Variant) : Command → Instr
  | .port w => decodeP x w
  | .event ev => decodeE ev

/-- The decoder on a word of the opcode table, for the variant of `State.reset`, V2 (log entry 7). A format-E row has no
bits, so no word stands for it. Of the others, a word below `2^11` in at most 16 bits is of format P, and every other
word of at most 17 bits of format R: the format-R rows below `0x800` are given 17 bits by the table. -/
def decodeTableWord (nbits w : Nat) : Option Instr :=
  if nbits ≤ 8 then none
  else if nbits ≤ 16 ∧ w < 2 ^ 11 then some (decodeP .v2 (BitVec.ofNat 11 w))
  else if w < 2 ^ 17 then (decodeR .v2 (BitVec.ofNat 17 w)).toOption
  else none

/-! ### The encoder -/

/-- The bank and number `c = n + 9*bank` of a channel (30_encoding.md R103). -/
def chanBank (c : Chan) : Bool := 9 ≤ c.val

/-- The number of a channel in its bank (30_encoding.md R103). -/
def chanNum (c : Chan) : Nat := if 9 ≤ c.val then c.val - 9 else c.val

/-- The offset of an operator: the inverse of `SLOT_OF_OFFSET` (30_encoding.md R104). -/
def offsetOfOp (o : OpRef) : Nat :=
  8 * (chanNum o.ch / 3) + chanNum o.ch % 3 + (match o.slot with | .one => 0 | .two => 3)

/-- The base address of a group of operator registers (30_encoding.md R105). -/
def OpReg.base : OpReg → Nat
  | .opchar => 0x20
  | .oplevel => 0x40
  | .opad => 0x60
  | .opsr => 0x80
  | .opwave => 0xE0

/-- The bank of a location. -/
def Loc.bank : Loc → Bool
  | .test | .timer1 | .timer2 | .tctl | .mode | .rhythm => false
  | .fourop | .newmode => true
  | .opReg _ o => chanBank o.ch
  | .fnlo c | .konblk c | .fbcon c => chanBank c

/-- The register number of a location (30_encoding.md R105, R106); of the two places of `FBCON` the first. -/
def Loc.number : Loc → Byte
  | .test => 0x01
  | .timer1 => 0x02
  | .timer2 => 0x03
  | .tctl => 0x04
  | .mode => 0x08
  | .fourop => 0x04
  | .newmode => 0x05
  | .rhythm => 0xBD
  | .opReg g o => BitVec.ofNat 8 (g.base + offsetOfOp o)
  | .fnlo c => BitVec.ofNat 8 (0xA0 + chanNum c)
  | .konblk c => BitVec.ofNat 8 (0xB0 + chanNum c)
  | .fbcon c => BitVec.ofNat 8 (0xC0 + chanNum c)

/-- The nine address bits `bank || a` of a location (20_memory.md R71). -/
def Loc.addr (l : Loc) : BitVec 9 := BitVec.ofBool l.bank ++ l.number

/-- The format-R word of a location and a data byte. -/
def regWord (l : Loc) (v : Byte) : BitVec 17 := l.addr ++ v

/-- One bit. -/
abbrev bit (b : Bool) : BitVec 1 := BitVec.ofBool b

/-- The encoder, written from 30_encoding.md R102, R105 and R106; bits no field has are 0. -/
def encode : Instr → Encoded
  | .wra v => .p (0b000#3 ++ v)
  | .wra2 v => .p (0b010#3 ++ v)
  | .wrd v => .p (0b001#3 ++ v)
  | .rd p => .p (1#1 ++ p ++ 0#8)
  | .texp0 => .e .texp0
  | .texp1 => .e .texp1
  | .tick => .e .tick
  | .peakclr => .e .peakclr
  | .reset => .e .reset
  | .test wse => .r (regWord .test (0#2 ++ bit wse ++ 0#5))
  | .timer1 t1 => .r (regWord .timer1 t1)
  | .timer2 t2 => .r (regWord .timer2 t2)
  | .tctl rst mt1 mt2 st2 st1 =>
    .r (regWord .tctl (bit rst ++ bit mt1 ++ bit mt2 ++ 0#3 ++ bit st2 ++ bit st1))
  | .mode csm nts => .r (regWord .mode (bit csm ++ bit nts ++ 0#6))
  | .fourop ext => .r (regWord .fourop (0#2 ++ ext))
  | .newmode new => .r (regWord .newmode (0#7 ++ bit new))
  | .rhythm dam dvb rhy bd sd tom tc hh =>
    .r (regWord .rhythm
      (bit dam ++ bit dvb ++ bit rhy ++ bit bd ++ bit sd ++ bit tom ++ bit tc ++ bit hh))
  | .opchar o am vib egt ksr mult =>
    .r (regWord (.opReg .opchar o) (bit am ++ bit vib ++ bit egt ++ bit ksr ++ mult))
  | .oplevel o ksl tl => .r (regWord (.opReg .oplevel o) (ksl ++ tl))
  | .opad o ar dr => .r (regWord (.opReg .opad o) (ar ++ dr))
  | .opsr o sl rr => .r (regWord (.opReg .opsr o) (sl ++ rr))
  | .opwave o ws => .r (regWord (.opReg .opwave o) (0#5 ++ ws))
  | .fnlo c lo => .r (regWord (.fnlo c) lo)
  | .konblk c kon block hi => .r (regWord (.konblk c) (0#2 ++ bit kon ++ block ++ hi))
  | .fbcon c chb cha fb con =>
    .r (regWord (.fbcon c) (0#2 ++ bit chb ++ bit cha ++ fb ++ bit con))

/-! ### Pseudo-commands and traces (30_encoding.md R101, R113) -/

/-- A write of `v` to the address port of bank `bank`. -/
def addressWrite (bank : Bool) (v : Byte) : Command := .port (0#1 ++ bit bank ++ 0#1 ++ v)

/-- A write of `v` to the data port 1. -/
def dataWrite (v : Byte) : Command := .port (0b001#3 ++ v)

/-- `W r, v`: the address, then the data. -/
def traceW (r : BitVec 9) (v : Byte) : List Command :=
  [addressWrite (r.getLsbD 8) (r.extractLsb' 0 8), dataWrite v]

/-- `TICK n`. -/
def traceTicks (n : Nat) : List Command := List.replicate n (.event .tick)

/-- `GEN n`: one call of the source's `generate` for `n` samples (48_sample_tick.md R350). -/
def traceGen (n : Nat) : List Command := .event .peakclr :: traceTicks n

/-- The commands that carry out an instruction: a register write is assembled to a `W` (30_encoding.md R113). -/
def Instr.commands (i : Instr) : List Command :=
  match encode i with
  | .p w => [.port w]
  | .e ev => [.event ev]
  | .r w => traceW (w.extractLsb' 8 9) (w.extractLsb' 0 8)

end Sys2Proof
end

