-- ==== Sys2Proof/Machine/Tables.lean ====
section
/-! DEFINITION. The contents of the lookup tables as 40_tables.md prints them, the parameters that follow the variant
(00_scope.md R8), the rate configuration from the two clocks (R9), and the standard configuration. Every lookup is total:
outside a table's index range it answers 0, which no run from reset on a well-formed configuration reaches (log entry 9). -/

namespace Sys2Proof

/-! ### Parameters that follow the variant (00_scope.md R8) -/

/-- `NCH`, the number of channels. -/
def nch : Variant → Nat
  | .v1 => 9
  | .v2 => 18

/-- `NOPS`, the number of operators. -/
def nops (x : Variant) : Nat := 2 * nch x

/-- `NWAVE`, the number of waveforms. -/
def nwave : Variant → Nat
  | .v1 => 4
  | .v2 => 8

/-- `AR_INSTANT`, the smallest attack rate that completes at once. -/
def arInstant : Variant → Nat
  | .v1 => 78
  | .v2 => 76

/-- `EXP_ROWS`, the halvings the exponential table spans. -/
def expRows : Variant → Nat
  | .v1 => 12
  | .v2 => 13

/-- `TL_LEN = EXP_ROWS * 512`, the first argument outside the exponential table. -/
def tlLen (x : Variant) : Nat := expRows x * 512

/-- `ENV_QUIET = TL_LEN >> 4`. -/
def envQuiet (x : Variant) : Nat := tlLen x >>> 4

/-- `CLOCK_DIV`, master clocks in a native sample period. -/
def clockDiv : Variant → Nat
  | .v1 => 72
  | .v2 => 288

/-! ### Tables in rows of 16 -/

/-- Entry `i` of a table in rows of 16. -/
def rows16 (t : List (List Nat)) (i : Nat) : Nat := (t.getD (i / 16) []).getD (i % 16) 0

/-- The table of `16 * n` entries whose entry `i` is `f i`. -/
def toRows16 (n : Nat) (f : Nat → Nat) : List (List Nat) :=
  (List.range n).map fun r => (List.range 16).map fun k => f (16 * r + k)

/-- `n` rows of one value. -/
def constRows (n v : Nat) : List (List Nat) := List.replicate n (List.replicate 16 v)

/-- The table read backwards. -/
def mirrorRows (t : List (List Nat)) : List (List Nat) := (t.map List.reverse).reverse

/-- The table with the sign bit of every entry set: the negative of what it stands for (40_tables.md R133). -/
def negateRows (t : List (List Nat)) : List (List Nat) := t.map fun r => r.map (· ||| 1)

/-- Every second element of a list, the first among them. -/
def everySecond : List Nat → List Nat
  | [] => []
  | [a] => [a]
  | a :: _ :: l => a :: everySecond l

/-- The table at double speed: every second entry, two rows making one. -/
def doubleRows : List (List Nat) → List (List Nat)
  | [] => []
  | [r] => [everySecond r]
  | r :: r' :: t => (everySecond r ++ everySecond r') :: doubleRows t

/-! ### Contents (40_tables.md) -/

/-- `EXP` (40_tables.md R131). -/
def expRowsStd : List (List Nat) := [
    [4084, 4074, 4062, 4052, 4040, 4030, 4020, 4008, 3998, 3986, 3976, 3966, 3954, 3944, 3932, 3922],
    [3912, 3902, 3890, 3880, 3870, 3860, 3848, 3838, 3828, 3818, 3808, 3796, 3786, 3776, 3766, 3756],
    [3746, 3736, 3726, 3716, 3706, 3696, 3686, 3676, 3666, 3656, 3646, 3636, 3626, 3616, 3606, 3596],
    [3588, 3578, 3568, 3558, 3548, 3538, 3530, 3520, 3510, 3500, 3492, 3482, 3472, 3464, 3454, 3444],
    [3434, 3426, 3416, 3408, 3398, 3388, 3380, 3370, 3362, 3352, 3344, 3334, 3326, 3316, 3308, 3298],
    [3290, 3280, 3272, 3262, 3254, 3246, 3236, 3228, 3218, 3210, 3202, 3192, 3184, 3176, 3168, 3158],
    [3150, 3142, 3132, 3124, 3116, 3108, 3100, 3090, 3082, 3074, 3066, 3058, 3050, 3040, 3032, 3024],
    [3016, 3008, 3000, 2992, 2984, 2976, 2968, 2960, 2952, 2944, 2936, 2928, 2920, 2912, 2904, 2896],
    [2888, 2880, 2872, 2866, 2858, 2850, 2842, 2834, 2826, 2818, 2812, 2804, 2796, 2788, 2782, 2774],
    [2766, 2758, 2752, 2744, 2736, 2728, 2722, 2714, 2706, 2700, 2692, 2684, 2678, 2670, 2664, 2656],
    [2648, 2642, 2634, 2628, 2620, 2614, 2606, 2600, 2592, 2584, 2578, 2572, 2564, 2558, 2550, 2544],
    [2536, 2530, 2522, 2516, 2510, 2502, 2496, 2488, 2482, 2476, 2468, 2462, 2456, 2448, 2442, 2436],
    [2428, 2422, 2416, 2410, 2402, 2396, 2390, 2384, 2376, 2370, 2364, 2358, 2352, 2344, 2338, 2332],
    [2326, 2320, 2314, 2308, 2300, 2294, 2288, 2282, 2276, 2270, 2264, 2258, 2252, 2246, 2240, 2234],
    [2228, 2222, 2216, 2210, 2204, 2198, 2192, 2186, 2180, 2174, 2168, 2162, 2156, 2150, 2144, 2138],
    [2132, 2128, 2122, 2116, 2110, 2104, 2098, 2092, 2088, 2082, 2076, 2070, 2064, 2060, 2054, 2048]]

/-- The first quarter of `LOGSIN` (40_tables.md R133). -/
def logsinQuarterStd : List (List Nat) := [
    [4274, 3462, 3086, 2838, 2652, 2504, 2380, 2274, 2182, 2100, 2026, 1958, 1898, 1840, 1788, 1738],
    [1692, 1650, 1608, 1570, 1534, 1498, 1464, 1434, 1402, 1374, 1344, 1318, 1292, 1266, 1242, 1218],
    [1196, 1174, 1152, 1132, 1112, 1092, 1072, 1054, 1036, 1018, 1002, 984, 968, 952, 936, 922],
    [906, 892, 878, 864, 850, 836, 822, 810, 798, 784, 772, 760, 750, 738, 726, 716],
    [704, 694, 682, 672, 662, 652, 642, 632, 622, 614, 604, 594, 586, 578, 568, 560],
    [552, 542, 534, 526, 518, 510, 502, 496, 488, 480, 472, 466, 458, 452, 444, 438],
    [430, 424, 418, 410, 404, 398, 392, 386, 380, 374, 368, 362, 356, 350, 344, 338],
    [334, 328, 322, 318, 312, 306, 302, 296, 292, 286, 282, 276, 272, 268, 262, 258],
    [254, 250, 244, 240, 236, 232, 228, 224, 220, 216, 212, 208, 204, 200, 196, 192],
    [188, 184, 182, 178, 174, 170, 166, 164, 160, 156, 154, 150, 148, 144, 140, 138],
    [134, 132, 128, 126, 124, 120, 118, 114, 112, 110, 106, 104, 102, 98, 96, 94],
    [92, 90, 86, 84, 82, 80, 78, 76, 74, 72, 70, 68, 66, 64, 62, 60],
    [58, 56, 54, 52, 50, 48, 46, 46, 44, 42, 40, 40, 38, 36, 34, 34],
    [32, 30, 30, 28, 26, 26, 24, 24, 22, 20, 20, 18, 18, 16, 16, 14],
    [14, 14, 12, 12, 10, 10, 10, 8, 8, 8, 6, 6, 6, 4, 4, 4],
    [4, 2, 2, 2, 2, 2, 2, 2, 0, 0, 0, 0, 0, 0, 0, 0]]

/-- The first half of `LOGSIN`: the quarter and its mirror image, `LOGSIN[i] = LOGSIN[511 - i]` (40_tables.md R133). -/
def logsinHalfStd : List (List Nat) := logsinQuarterStd ++ mirrorRows logsinQuarterStd

/-- `LOGSIN`: the second half is the first with the sign, `LOGSIN[i] = LOGSIN[i - 512] | 1` (40_tables.md R133). -/
def logsinRowsStd : List (List Nat) := logsinHalfStd ++ negateRows logsinHalfStd

/-- The eight waveforms made of `LOGSIN`, with the value of `MUTE` (40_tables.md R134 to R141). -/
def waveRowsOf (mute : Nat) : List (List (List Nat)) :=
  [logsinRowsStd,
   logsinHalfStd ++ constRows 32 mute,
   logsinHalfStd ++ logsinHalfStd,
   logsinQuarterStd ++ constRows 16 mute ++ logsinQuarterStd ++ constRows 16 mute,
   doubleRows logsinRowsStd ++ constRows 32 mute,
   doubleRows logsinHalfStd ++ doubleRows logsinHalfStd ++ constRows 32 mute,
   constRows 32 0 ++ constRows 32 1,
   toRows16 64 fun i => min (if 512 ≤ i then (1023 - i) * 16 + 1 else i * 16) mute]

/-- `WAVE` of a variant: its first `NWAVE` waveforms, with `TL_LEN` for `MUTE` (40_tables.md R134 to R141). -/
def waveRowsStd (x : Variant) : List (List (List Nat)) := (waveRowsOf (tlLen x)).take (nwave x)

/-- `MUL2` (40_tables.md R143). -/
def mul2Std : List Nat := [1, 2, 4, 6, 8, 10, 12, 14, 16, 18, 20, 20, 24, 24, 30, 30]

/-- `KSL_TAB` (40_tables.md R144). -/
def kslRowsStd : List (List Nat) := [
    [0, 0, 0, 0, 0, 0, 0, 0, 0, 0, 0, 0, 0, 0, 0, 0],
    [0, 0, 0, 0, 0, 0, 0, 0, 0, 8, 12, 16, 20, 24, 28, 32],
    [0, 0, 0, 0, 0, 12, 20, 28, 32, 40, 44, 48, 52, 56, 60, 64],
    [0, 0, 0, 20, 32, 44, 52, 60, 64, 72, 76, 80, 84, 88, 92, 96],
    [0, 0, 32, 52, 64, 76, 84, 92, 96, 104, 108, 112, 116, 120, 124, 128],
    [0, 32, 64, 84, 96, 108, 116, 124, 128, 136, 140, 144, 148, 152, 156, 160],
    [0, 64, 96, 116, 128, 140, 148, 156, 160, 168, 172, 176, 180, 184, 188, 192],
    [0, 96, 128, 148, 160, 172, 180, 188, 192, 200, 204, 208, 212, 216, 220, 224]]

/-- `KSL_SHIFT` (40_tables.md R145). -/
def kslShiftStd : List Nat := [31, 1, 2, 0]

/-- `SL_EFF` (40_tables.md R146). -/
def slEffStd : List Nat := [0, 16, 32, 48, 64, 80, 96, 112, 128, 144, 160, 176, 192, 208, 224, 496]

/-- `EG_INC` (40_tables.md R147). -/
def egIncRowsStd : List (List Nat) := [
    [0, 1, 0, 1, 0, 1, 0, 1],
    [0, 1, 0, 1, 1, 1, 0, 1],
    [0, 1, 1, 1, 0, 1, 1, 1],
    [0, 1, 1, 1, 1, 1, 1, 1],
    [1, 1, 1, 1, 1, 1, 1, 1],
    [1, 1, 1, 2, 1, 1, 1, 2],
    [1, 2, 1, 2, 1, 2, 1, 2],
    [1, 2, 2, 2, 1, 2, 2, 2],
    [2, 2, 2, 2, 2, 2, 2, 2],
    [2, 2, 2, 4, 2, 2, 2, 4],
    [2, 4, 2, 4, 2, 4, 2, 4],
    [2, 4, 4, 4, 2, 4, 4, 4],
    [4, 4, 4, 4, 4, 4, 4, 4],
    [8, 8, 8, 8, 8, 8, 8, 8],
    [0, 0, 0, 0, 0, 0, 0, 0]]

/-- `RATE_SHIFT` (40_tables.md R148). -/
def rateShiftRowsStd : List (List Nat) := [
    [0, 0, 0, 0, 0, 0, 0, 0, 0, 0, 0, 0, 0, 0, 0, 0],
    [12, 12, 12, 12, 11, 11, 11, 11, 10, 10, 10, 10, 9, 9, 9, 9],
    [8, 8, 8, 8, 7, 7, 7, 7, 6, 6, 6, 6, 5, 5, 5, 5],
    [4, 4, 4, 4, 3, 3, 3, 3, 2, 2, 2, 2, 1, 1, 1, 1],
    [0, 0, 0, 0, 0, 0, 0, 0, 0, 0, 0, 0, 0, 0, 0, 0],
    [0, 0, 0, 0, 0, 0, 0, 0, 0, 0, 0, 0, 0, 0, 0, 0]]

/-- `RATE_SELECT` (40_tables.md R149). -/
def rateSelectRowsStd : List (List Nat) := [
    [14, 14, 14, 14, 14, 14, 14, 14, 14, 14, 14, 14, 14, 14, 14, 14],
    [0, 1, 2, 3, 0, 1, 2, 3, 0, 1, 2, 3, 0, 1, 2, 3],
    [0, 1, 2, 3, 0, 1, 2, 3, 0, 1, 2, 3, 0, 1, 2, 3],
    [0, 1, 2, 3, 0, 1, 2, 3, 0, 1, 2, 3, 0, 1, 2, 3],
    [0, 1, 2, 3, 4, 5, 6, 7, 8, 9, 10, 11, 12, 12, 12, 12],
    [12, 12, 12, 12, 12, 12, 12, 12, 12, 12, 12, 12, 12, 12, 12, 12]]

/-- `LFO_AM_TAB` (40_tables.md R151). -/
def lfoAmRowsStd : List (List Nat) := [
    [0, 0, 0, 0, 0, 0, 0, 1, 1, 1, 1, 2, 2, 2, 2, 3],
    [3, 3, 3, 4, 4, 4, 4, 5, 5, 5, 5, 6, 6, 6, 6, 7],
    [7, 7, 7, 8, 8, 8, 8, 9, 9, 9, 9, 10, 10, 10, 10, 11],
    [11, 11, 11, 12, 12, 12, 12, 13, 13, 13, 13, 14, 14, 14, 14, 15],
    [15, 15, 15, 16, 16, 16, 16, 17, 17, 17, 17, 18, 18, 18, 18, 19],
    [19, 19, 19, 20, 20, 20, 20, 21, 21, 21, 21, 22, 22, 22, 22, 23],
    [23, 23, 23, 24, 24, 24, 24, 25, 25, 25, 25, 26, 26, 26, 25, 25],
    [25, 25, 24, 24, 24, 24, 23, 23, 23, 23, 22, 22, 22, 22, 21, 21],
    [21, 21, 20, 20, 20, 20, 19, 19, 19, 19, 18, 18, 18, 18, 17, 17],
    [17, 17, 16, 16, 16, 16, 15, 15, 15, 15, 14, 14, 14, 14, 13, 13],
    [13, 13, 12, 12, 12, 12, 11, 11, 11, 11, 10, 10, 10, 10, 9, 9],
    [9, 9, 8, 8, 8, 8, 7, 7, 7, 7, 6, 6, 6, 6, 5, 5],
    [5, 5, 4, 4, 4, 4, 3, 3, 3, 3, 2, 2, 2, 2, 1, 1],
    [1, 1]]

/-- `LFO_PM_TAB`, row `2*f + d` (40_tables.md R152). -/
def lfoPmRowsStd : List (List Int) := [
    [0, 0, 0, 0, 0, 0, 0, 0],
    [0, 0, 0, 0, 0, 0, 0, 0],
    [0, 0, 0, 0, 0, 0, 0, 0],
    [1, 0, 0, 0, -1, 0, 0, 0],
    [1, 0, 0, 0, -1, 0, 0, 0],
    [2, 1, 0, -1, -2, -1, 0, 1],
    [1, 0, 0, 0, -1, 0, 0, 0],
    [3, 1, 0, -1, -3, -1, 0, 1],
    [2, 1, 0, -1, -2, -1, 0, 1],
    [4, 2, 0, -2, -4, -2, 0, 2],
    [2, 1, 0, -1, -2, -1, 0, 1],
    [5, 2, 0, -2, -5, -2, 0, 2],
    [3, 1, 0, -1, -3, -1, 0, 1],
    [6, 3, 0, -3, -6, -3, 0, 3],
    [3, 1, 0, -1, -3, -1, 0, 1],
    [7, 3, 0, -3, -7, -3, 0, 3]]

/-- The tables of a variant with their decided contents. `WAVE` alone depends on the variant, by its number of waveforms
and `MUTE`. -/
def stdTables (x : Variant) : Tables where
  exp := expRowsStd
  logsin := logsinRowsStd
  wave := waveRowsStd x
  mul2 := mul2Std
  ksl := kslRowsStd
  slEff := slEffStd
  egInc := egIncRowsStd
  rateShift := rateShiftRowsStd
  rateSelect := rateSelectRowsStd
  lfoAm := lfoAmRowsStd
  lfoPm := lfoPmRowsStd

/-! ### The rate configuration (00_scope.md R9) -/

/-- The rate configuration that `initialize(clock_hz, output_rate_hz)` fixes: with
`FREQBASE = clock_hz / (CLOCK_DIV * output_rate_hz)` the constants of R9, each rounded down. -/
def ratesOf (x : Variant) (clockHz outputRateHz : Nat) : Rates :=
  let num := clockHz
  let den := clockDiv x * outputRateHz
  { freqNum := num
    freqDen := den
    lfoAmInc := BitVec.ofNat 32 (2 ^ 24 * num / (den * 64))
    lfoPmInc := BitVec.ofNat 32 (2 ^ 24 * num / (den * 1024))
    noiseF := BitVec.ofNat 32 (2 ^ 16 * num / den)
    egAdd := BitVec.ofNat 32 (2 ^ 16 * num / den)
    egOvf := 0x10000 }

/-- The native rate configuration, `FREQBASE = 1` (00_scope.md R9). -/
def nativeRates : Rates where
  freqNum := 1
  freqDen := 1
  lfoAmInc := 262144
  lfoPmInc := 16384
  noiseF := 65536
  egAdd := 65536
  egOvf := 65536

/-- The configuration of a variant with every open parameter at its default (93_implementation_defined.md section 2). -/
def stdConfig (x : Variant) : Config where
  variant := x
  rates := nativeRates
  tables := stdTables x
  kslShift := kslShiftStd
  slot1Delayed := match x with | .v1 => true | .v2 => false
  hasCsm := match x with | .v1 => true | .v2 => false
  hasWse := match x with | .v1 => true | .v2 => false
  statusShowsSt := false

/-! ### Lookups -/

/-- `fn_tab(i) = floor(i * 4096 * FREQBASE)` (00_scope.md R9). -/
def fnTab (cfg : Config) (i : Nat) : Nat := i * 4096 * cfg.rates.freqNum / cfg.rates.freqDen

/-- `EXP[x]` (40_tables.md R131). -/
def expTab (cfg : Config) (x : Nat) : Nat := rows16 cfg.tables.exp x

/-- `LOGSIN[i]`, `i` in `0..1023` (40_tables.md R133). -/
def logsin (cfg : Config) (i : Nat) : Nat := rows16 cfg.tables.logsin i

/-- `WAVE[w][i]`, `i` in `0..1023` (40_tables.md R134 to R141). -/
def waveTab (cfg : Config) (w : BitVec 3) (i : Nat) : Nat := rows16 (cfg.tables.wave.getD w.toNat []) i

/-- `MUL2[m]` (40_tables.md R143). -/
def mul2 (cfg : Config) (m : BitVec 4) : Nat := cfg.tables.mul2.getD m.toNat 0

/-- `KSL_TAB[k]` (40_tables.md R144). -/
def kslTab (cfg : Config) (k : Nat) : Nat := rows16 cfg.tables.ksl k

/-- `KSL_SHIFT[KSL]` (40_tables.md R145). -/
def kslShift (cfg : Config) (k : BitVec 2) : Nat := cfg.kslShift.getD k.toNat 0

/-- `SL_EFF[SL]` (40_tables.md R146). -/
def slEff (cfg : Config) (sl : BitVec 4) : Nat := cfg.tables.slEff.getD sl.toNat 0

/-- `EG_INC[sel][j]` (40_tables.md R147). -/
def egIncTab (cfg : Config) (sel j : Nat) : Nat := (cfg.tables.egInc.getD sel []).getD j 0

/-- `RATE_SHIFT[r]` (40_tables.md R148). -/
def rateShift (cfg : Config) (r : Nat) : Nat := rows16 cfg.tables.rateShift r

/-- `RATE_SELECT[r]` (40_tables.md R149). -/
def rateSelect (cfg : Config) (r : Nat) : Nat := rows16 cfg.tables.rateSelect r

/-- `LFO_AM_TAB[k]` (40_tables.md R151). -/
def lfoAmTab (cfg : Config) (k : Nat) : Nat := rows16 cfg.tables.lfoAm k

/-- `LFO_PM_TAB[f][d][j]` (40_tables.md R152). -/
def lfoPmTab (cfg : Config) (f : Nat) (d : Bool) (j : Nat) : Int :=
  (cfg.tables.lfoPm.getD (2 * f + d.toNat) []).getD j 0

end Sys2Proof
end

