-- ==== Sys2Proof/Machine/State.lean ====
section
/-! DEFINITION. The state of an instance (10_state.md R20), grouped as the spec groups it, the ways a step can stop, and
the state after reset (70_reset_and_hazards.md R400). -/

namespace Sys2Proof.Machine

/-- The envelope phase of an operator (10_state.md R27). -/
inductive Phase where
  | off | rel | sus | dec | att
deriving DecidableEq, Repr

/-- The numeric encoding of 10_state.md R27, used by one comparison (42_envelope_generator.md R183, R186). -/
def Phase.num : Phase → Nat
  | .off => 0
  | .rel => 1
  | .sus => 2
  | .dec => 3
  | .att => 4

/-- One operator: its programmable fields (10_state.md R22) and its dynamic state (R26 to R31). -/
structure Op where
  am    : Bool
  vib   : Bool
  egt   : Bool
  ksr   : Bool
  mult  : BitVec 4
  ksl   : BitVec 2
  tl    : BitVec 6
  ar    : BitVec 4
  dr    : BitVec 4
  sl    : BitVec 4
  rr    : BitVec 4
  /-- `ws_reg`, the waveform number as last accepted. -/
  wsReg : BitVec 3
  /-- `wave`, the waveform in effect. -/
  wave  : BitVec 3
  /-- The phase accumulator, 16.16 (R26). -/
  cnt   : BitVec 32
  /-- `state` (R27). -/
  phase : Phase
  /-- The envelope counter (R28). -/
  vol   : BitVec 9
  /-- The key mask (R29). -/
  key   : BitVec 3
  /-- `fb[0]`, an `s14` (R30). -/
  fb0   : BitVec 14
  /-- `fb[1]`, an `s14` (R30). -/
  fb1   : BitVec 14
deriving DecidableEq, Repr

/-- One channel: its programmable fields (10_state.md R23), its output latches (R32), its output registers (R38) and
its two operators. -/
structure Channel where
  fnum    : BitVec 10
  block   : BitVec 3
  fb      : BitVec 3
  con     : Bool
  cha     : Bool
  chb     : Bool
  panL    : Bool
  panR    : Bool
  /-- The bus value of the current sample, an `s32` (R38). -/
  chanout : BitVec 32
  /-- The largest magnitude seen, a `u32` (R38). -/
  peak    : BitVec 32
  slot1   : Op
  slot2   : Op
deriving DecidableEq, Repr

/-- The global programmable fields (10_state.md R24). -/
structure Globals where
  wse : Bool
  t1  : Byte
  t2  : Byte
  st1 : Bool
  st2 : Bool
  mt1 : Bool
  mt2 : Bool
  csm : Bool
  nts : Bool
  dam : Bool
  dvb : Bool
  rhy : Bool
  bd  : Bool
  sd  : Bool
  tom : Bool
  tc  : Bool
  hh  : Bool
  /-- `EXT[i]` is bit `i`. -/
  ext : BitVec 6
  /-- `NEW` -/
  new : Bool
deriving DecidableEq, Repr

/-- The LFO counters, the noise generator and the envelope counters (10_state.md R34 to R36). -/
structure Gens where
  lfoAmCnt : BitVec 32
  lfoPmCnt : BitVec 32
  noiseRng : BitVec 23
  noiseP   : BitVec 16
  egCnt    : BitVec 32
  egTimer  : BitVec 32
deriving DecidableEq, Repr

/-- What a command returns (30_encoding.md R100). -/
inductive Result where
  /-- Nothing. -/
  | none
  /-- The `IRQ` bit. -/
  | irq (level : Bool)
  /-- A byte read. -/
  | byte (v : Byte)
deriving DecidableEq, Repr

/-- An event a command emits (60_exceptions.md R366). -/
inductive Emitted where
  /-- `TimerReload(i, p)`: timer `i` is to expire after `p` samples; `p = 0` stops it. -/
  | timerReload (i : Fin 2) (p : Nat)
  /-- `IrqChanged(l)`: the interrupt line changed to level `l`. -/
  | irqChanged (l : Bool)
deriving DecidableEq, Repr

/-- The outputs of the last command: what it returned and the events it emitted, in order (log entry 4). -/
structure Output where
  result : Result
  events : List Emitted
deriving DecidableEq, Repr

/-- The state of one instance. `cfg`, `input`, `live` and `out` are the model's own fields (log entries 1, 3, 4, 5);
every other is an element of 10_state.md R20. -/
structure State where
  /-- The configuration; no command writes it. -/
  cfg    : Config
  /-- The commands issued and not yet executed, oldest first. -/
  input  : List Command
  /-- The instance has had its first `RESET` (10_state.md R44). -/
  live   : Bool
  /-- The outputs of the last command. -/
  out    : Output
  /-- The global programmable fields (R24). -/
  glob   : Globals
  /-- The address latch: bit 8 the bank, bits 7:0 the register number (R33). -/
  addr   : BitVec 9
  /-- The free-running counters (R34 to R36). -/
  gens   : Gens
  /-- The status byte (R37). -/
  status : Byte
  /-- The mixed left sample, an `s32` (R38). -/
  mixL   : BitVec 32
  /-- The mixed right sample, an `s32` (R38). -/
  mixR   : BitVec 32
  /-- The channels with their operators; V1 has the first nine (log entry 6). -/
  chans  : Vector Channel 18
deriving DecidableEq, Repr

/-- Why a step stops with a fault: never. The hardware raises no exception and takes no trap, every command is total
and every input that is not meaningful is ignored (60_exceptions.md R360); so nothing raises a fault, which is safe. -/
inductive Fault : Type
deriving DecidableEq, Repr

/-- Why a step is refused. -/
inductive Refusal where
  /-- Raised by an arm of `exec` whose instruction has no meaning yet; no arm raises it. Safe: the run stops. -/
  | notModelled (mnemonic : String)
  /-- Raised by every command but `RESET` on an instance that has not been reset: the spec says a model refuses it
  (10_state.md R44, 60_exceptions.md R360). Safe: the run stops. -/
  | beforeFirstReset
deriving DecidableEq, Repr

/-- An operator after reset (70_reset_and_hazards.md R400). -/
def Op.reset : Op where
  am := false
  vib := false
  egt := false
  ksr := false
  mult := 0
  ksl := 0
  tl := 0
  ar := 0
  dr := 0
  sl := 0
  rr := 0
  wsReg := 0
  wave := 0
  cnt := 0
  phase := .off
  vol := 511
  key := 0
  fb0 := 0
  fb1 := 0

/-- A channel after reset (70_reset_and_hazards.md R400). -/
def Channel.reset : Channel where
  fnum := 0
  block := 0
  fb := 0
  con := false
  cha := false
  chb := false
  panL := true
  panR := true
  chanout := 0
  peak := 0
  slot1 := Op.reset
  slot2 := Op.reset

/-- The global fields after reset (70_reset_and_hazards.md R400). -/
def Globals.reset : Globals where
  wse := false
  t1 := 0
  t2 := 0
  st1 := false
  st2 := false
  mt1 := false
  mt2 := false
  csm := false
  nts := false
  dam := false
  dvb := false
  rhy := false
  bd := false
  sd := false
  tom := false
  tc := false
  hh := false
  ext := 0
  new := false

/-- The free-running counters after reset (70_reset_and_hazards.md R400). -/
def Gens.reset : Gens where
  lfoAmCnt := 0
  lfoPmCnt := 0
  noiseRng := 1
  noiseP := 0
  egCnt := 0
  egTimer := 0

/-- The state right after the first `RESET` of an instance of a configuration, nothing being issued yet
(70_reset_and_hazards.md R400; the first `RESET` emits no event). -/
def State.resetOf (cfg : Config) : State where
  cfg := cfg
  input := []
  live := true
  out := { result := .none, events := [] }
  glob := Globals.reset
  addr := 0
  gens := Gens.reset
  status := 0
  mixL := 0
  mixR := 0
  chans := Vector.replicate 18 Channel.reset

/-- The machine right after reset: an instance of V2 at its native rates (the spec leaves the variant to be chosen,
log entry 2). -/
def State.reset : State := State.resetOf (stdConfig .v2)

end Sys2Proof.Machine
end

