-- ==== Sys2Proof/Machine/Ops.lean ====
section
/-! DEFINITION. The named operations every meaning is written in: reading and updating channels and operators, what a
command returns and emits, the frame of a command, key-on and key-off, and the command that is executed next. The
hardware has no exception to take and none to return from (60_exceptions.md R360, R370); the interrupt request line that
stands in that place is in Flags.lean. -/

namespace Sys2Proof.Machine

/-! ### Channels and operators -/

/-- The operator of a slot. -/
def Channel.op (ch : Channel) : Slot → Op
  | .one => ch.slot1
  | .two => ch.slot2

/-- The channel with the operator of a slot replaced. -/
def Channel.setOp (ch : Channel) (sl : Slot) (p : Op) : Channel :=
  match sl with
  | .one => { ch with slot1 := p }
  | .two => { ch with slot2 := p }

/-- `ch[c]`. -/
def State.chan (s : State) (c : Chan) : Channel := s.chans.get c

/-- `op[c][s]`. -/
def State.op (s : State) (o : OpRef) : Op := (s.chan o.ch).op o.slot

/-- Channel `c` exists in this instance: `c < NCH` (00_scope.md R8). -/
def State.hasChan (s : State) (c : Chan) : Bool := c.val < nch s.cfg.variant

/-- The channels of this instance in ascending order. -/
def State.chanList (s : State) : List Chan := allChans.filter fun c => s.hasChan c

/-- The state with `ch[c]` replaced. -/
def State.setChan (s : State) (c : Chan) (x : Channel) : State := { s with chans := s.chans.set c x }

/-- The state with `ch[c]` changed by `f`; a channel the instance does not have is not changed (log entry 6). -/
def State.updChan (s : State) (c : Chan) (f : Channel → Channel) : State :=
  if s.hasChan c then s.setChan c (f (s.chan c)) else s

/-- The state with `op[c][s]` changed by `f`. -/
def State.updOp (s : State) (o : OpRef) (f : Op → Op) : State :=
  s.updChan o.ch fun ch => ch.setOp o.slot (f (ch.op o.slot))

/-- Every channel of the instance changed by `f`, each from what it was before: the loops whose order the spec says
cannot be observed (42_envelope_generator.md R181, 48_sample_tick.md R346; log entry 13). -/
def State.mapChans (s : State) (f : Chan → Channel → Channel) : State :=
  { s with chans := Vector.ofFn fun c => if s.hasChan c then f c (s.chan c) else s.chan c }

/-- Both operators of a channel changed by `f`. -/
def Channel.mapOps (ch : Channel) (f : Slot → Op → Op) : Channel :=
  { ch with slot1 := f .one ch.slot1, slot2 := f .two ch.slot2 }

/-! ### What a command returns and emits -/

/-- The state at the start of a command: nothing returned, nothing emitted yet (60_exceptions.md R366). -/
def State.begin (s : State) : State := { s with out := { result := .none, events := [] } }

/-- An event emitted, after those already emitted. -/
def State.emit (s : State) (e : Emitted) : State :=
  { s with out := { s.out with events := s.out.events ++ [e] } }

/-- What the command returns. -/
def State.returns (s : State) (r : Result) : State := { s with out := { s.out with result := r } }

/-- The interrupt line, `status[7]` (60_exceptions.md R361). -/
def State.irq (s : State) : Bool := s.status.getLsbD 7

/-- The command returns the `IRQ` bit as it stands (47_register_writes.md R306). -/
def State.returnsIrq (s : State) : State := s.returns (.irq s.irq)

/-- The frame of every command but `RESET`: refused before the first `RESET` (10_state.md R44), otherwise total
(00_scope.md R6). -/
def command (s : State) (f : State → State) : Host.Outcome State Fault Refusal :=
  if s.live then .next (f s.begin) else .refused .beforeFirstReset

/-! ### Key events -/

/-- `KeyOn(o, bit)` (42_envelope_generator.md R185). -/
def keyOn (bit : BitVec 3) (o : Op) : Op :=
  if o.key = 0 then { o with cnt := 0, phase := .att, key := o.key ||| bit }
  else { o with key := o.key ||| bit }

/-- `KeyOff(o, bit)` (42_envelope_generator.md R186). -/
def keyOff (bit : BitVec 3) (o : Op) : Op :=
  if o.key = 0 then o
  else
    let k := o.key &&& ~~~bit
    if k = 0 ∧ Phase.rel.num < o.phase.num then { o with key := k, phase := .rel } else { o with key := k }

/-- `KeyOn` or `KeyOff` as a register bit says. -/
def keyEvent (on : Bool) (bit : BitVec 3) (o : Op) : Op := if on then keyOn bit o else keyOff bit o

/-- The bit of the channel key-on register in the key mask (10_state.md R29). -/
def keyBitChannel : BitVec 3 := 1
/-- The bit of the rhythm key-on bits in the key mask (10_state.md R29). -/
def keyBitRhythm : BitVec 3 := 2
/-- The bit of the CSM mechanism in the key mask (10_state.md R29). -/
def keyBitCsm : BitVec 3 := 4

/-! ### The next command -/

/-- The next command as an instruction, and the state without it; nothing when the host has issued none (log entry 3). -/
def nextCommand (s : State) : Option (Instr × State) :=
  match s.input with
  | [] => none
  | c :: rest => some (c.instr s.cfg.variant, { s with input := rest })

/-- The state whose next command is a word of the opcode table (log entry 7): a format-P word is issued as it stands;
a format-R word is put where a data write finds it, its address in the latch and its data byte in the `WRD` issued. -/
def placeWord (s : State) (nbits w : Nat) : State :=
  if nbits ≤ 16 ∧ w < 2 ^ 11 then { s with input := .port (BitVec.ofNat 11 w) :: s.input }
  else { s with addr := BitVec.ofNat 9 (w / 256), input := dataWrite (BitVec.ofNat 8 w) :: s.input }

end Sys2Proof.Machine
end

