-- ==== Sys2Proof/Machine/Operands.lean ====
section
/-! DEFINITION. The derived values of 10_state.md R46 to R57: pure functions of the state and the configuration,
evaluated when a rule uses them and cached nowhere (R41). -/

namespace Sys2Proof.Machine

/-- The position of a pair-low channel in the list `0, 1, 2, 9, 10, 11` (10_state.md R46). -/
def pairIndex (c : Chan) : Option Nat :=
  if c.val < 3 then some c.val
  else if 9 ≤ c.val ∧ c.val < 12 then some (c.val - 6)
  else none

/-- The pair-low channel `c - 3` of a pair-high channel `c` in `3, 4, 5, 12, 13, 14` (10_state.md R46). -/
def pairLow (c : Chan) : Option Chan :=
  if (3 ≤ c.val ∧ c.val < 6) ∨ (12 ≤ c.val ∧ c.val < 15) then some ⟨c.val - 3, by omega⟩ else none

/-- The pair-high channel `c + 3` of a pair-low channel `c` (10_state.md R46). -/
def pairHigh (c : Chan) : Chan := c + 3

/-- `ext_of(c)`, false for a channel that is not pair-low (10_state.md R46). -/
def extOf (s : State) (c : Chan) : Bool :=
  match pairIndex c with
  | some i => s.glob.ext.getLsbD i
  | none => false

/-- `is_master(c)` (10_state.md R47). -/
def isMaster (s : State) (c : Chan) : Bool := s.cfg.variant == .v2 && s.glob.new && extOf s c

/-- `is_slave(c)` (10_state.md R47). -/
def isSlave (s : State) (c : Chan) : Bool :=
  match pairLow c with
  | some m => isMaster s m
  | none => false

/-- `fsrc(c)`, the channel whose frequency code channel `c` uses (10_state.md R48). -/
def fsrc (s : State) (c : Chan) : Chan :=
  match pairLow c with
  | some m => if isMaster s m then m else c
  | none => c

/-- `block_fnum(c) = BLOCK || FNUM` (10_state.md R49). -/
def blockFnum (s : State) (c : Chan) : BitVec 13 :=
  (s.chan (fsrc s c)).block ++ (s.chan (fsrc s c)).fnum

/-- The base increment of a frequency code: `fn_tab(bf[9:0]) >> (7 - bf[12:10])` (10_state.md R50). -/
def fcOf (cfg : Config) (bf : BitVec 13) : Nat :=
  fnTab cfg (bf.extractLsb' 0 10).toNat >>> (7 - (bf.extractLsb' 10 3).toNat)

/-- `fc(c)` (10_state.md R50). -/
def fc (s : State) (c : Chan) : Nat := fcOf s.cfg (blockFnum s c)

/-- The increment of a frequency code and a multiplier, modulo `2^32` (10_state.md R53, 41_phase_generator.md R162). -/
def incrOf (cfg : Config) (bf : BitVec 13) (mult : BitVec 4) : BitVec 32 :=
  BitVec.ofNat 32 (fcOf cfg bf * mul2 cfg mult)

/-- `incr(c, s)` (10_state.md R53). -/
def incr (s : State) (o : OpRef) : BitVec 32 := incrOf s.cfg (blockFnum s o.ch) (s.op o).mult

/-- `kcode(c)` (10_state.md R51). -/
def kcode (s : State) (c : Chan) : BitVec 4 :=
  let bf := blockFnum s c
  bf.extractLsb' 10 3 ++ BitVec.ofBool (if s.glob.nts then bf.getLsbD 8 else bf.getLsbD 9)

/-- `ksr(c, s)` (10_state.md R52). -/
def ksr (s : State) (o : OpRef) : Nat :=
  if (s.op o).ksr then (kcode s o.ch).toNat else (kcode s o.ch).toNat >>> 2

/-- `tll(c, s)`: the total level and the key-scale level (10_state.md R54). -/
def tll (s : State) (o : OpRef) : Nat :=
  (s.op o).tl.toNat <<< 2
    + kslTab s.cfg ((blockFnum s o.ch).extractLsb' 6 7).toNat >>> kslShift s.cfg (s.op o).ksl

/-- `rate(x)` of a rate field (10_state.md R55). -/
def rate (x : BitVec 4) : Nat := if x = 0 then 0 else 16 + 4 * x.toNat

/-- The three rates of an envelope (10_state.md R56). -/
inductive EgRate where
  | attack | decay | release
deriving DecidableEq, Repr

/-- `rate + ksr` of one of the three rates (10_state.md R56). -/
def scaledRate (s : State) (o : OpRef) : EgRate → Nat
  | .attack => rate (s.op o).ar + ksr s o
  | .decay => rate (s.op o).dr + ksr s o
  | .release => rate (s.op o).rr + ksr s o

/-- `eg_par(c, s, which)`, the envelope shift and the increment row (10_state.md R56). -/
def egPar (s : State) (o : OpRef) (which : EgRate) : Nat × Nat :=
  let r := scaledRate s o which
  if which = .attack ∧ arInstant s.cfg.variant ≤ r then (0, 13)
  else (rateShift s.cfg r, rateSelect s.cfg r)

/-- `fb_shift(c)` (10_state.md R57). -/
def fbShift (s : State) (c : Chan) : Nat :=
  if (s.chan c).fb = 0 then 0 else (s.chan c).fb.toNat + 7

/-- `x >>a n`, the arithmetic right shift, `floor(x / 2^n)` for every sign (00_scope.md R11). -/
def asr (x : Int) (n : Nat) : Int := x >>> n

end Sys2Proof.Machine
end

