-- ==== Sys2Proof/Machine/ChannelRegs.lean ====
section
/-! DEFINITION. The writes to the channel registers (47_register_writes.md section 5). -/

namespace Sys2Proof.Machine

/-- `FNLO`: the low eight bits of `FNUM` (47_register_writes.md R300). -/
def writeFnlo (c : Chan) (lo : Byte) (s : State) : State :=
  s.updChan c fun ch => { ch with fnum := ch.fnum.extractLsb' 8 2 ++ lo }

/-- `FNLO` (47_register_writes.md R300). -/
def execFnlo (c : Chan) (lo : Byte) (s : State) : Host.Outcome State Fault Refusal := command s (writeFnlo c lo)

/-- The operators that the key bit of channel `c` reaches: none of a slave, four of a master, otherwise two
(47_register_writes.md R301). -/
def konTargets (s : State) (c : Chan) : List OpRef :=
  if isSlave s c then []
  else if isMaster s c then [⟨c, .one⟩, ⟨c, .two⟩, ⟨pairHigh c, .one⟩, ⟨pairHigh c, .two⟩]
  else [⟨c, .one⟩, ⟨c, .two⟩]

/-- `KONBLK`: the high bits of `FNUM` and `BLOCK`, then the key events (47_register_writes.md R301). -/
def writeKonblk (c : Chan) (kon : Bool) (block : BitVec 3) (hi : BitVec 2) (s : State) : State :=
  (konTargets s c).foldl (fun t o => t.updOp o (keyEvent kon keyBitChannel))
    (s.updChan c fun ch => { ch with fnum := hi ++ ch.fnum.extractLsb' 0 8, block := block })

/-- `KONBLK` (47_register_writes.md R301). -/
def execKonblk (c : Chan) (kon : Bool) (block : BitVec 3) (hi : BitVec 2) (s : State) :
    Host.Outcome State Fault Refusal := command s (writeKonblk c kon block hi)

/-- What an `FBCON` write stores; the output enables exist in V2 only, and `NEW = 0` forces both on
(47_register_writes.md R303). -/
def storeFbcon (x : Variant) (new chb cha : Bool) (fb : BitVec 3) (con : Bool) (ch : Channel) : Channel :=
  match x with
  | .v1 => { ch with fb := fb, con := con }
  | .v2 => { ch with fb := fb, con := con, cha := cha, chb := chb,
                     panL := if new then cha else true, panR := if new then chb else true }

/-- `FBCON` (47_register_writes.md R303). -/
def writeFbcon (c : Chan) (chb cha : Bool) (fb : BitVec 3) (con : Bool) (s : State) : State :=
  s.updChan c (storeFbcon s.cfg.variant s.glob.new chb cha fb con)

/-- `FBCON` (47_register_writes.md R303). -/
def execFbcon (c : Chan) (chb cha : Bool) (fb : BitVec 3) (con : Bool) (s : State) :
    Host.Outcome State Fault Refusal := command s (writeFbcon c chb cha fb con)

end Sys2Proof.Machine
end

