-- ==== Sys2Proof/Machine/Flags.lean ====
section
/-! DEFINITION. The status flags, the interrupt request line and the timer periods (60_exceptions.md R361 to R368). -/

namespace Sys2Proof.Machine

/-- `FT1`, bit 6 of the status byte (60_exceptions.md R361). -/
def flagTimer1 : Byte := 0x40
/-- `FT2`, bit 5 of the status byte (60_exceptions.md R361). -/
def flagTimer2 : Byte := 0x20
/-- Both timer flags. -/
def flagsBoth : Byte := 0x60

/-- `(MT1 << 6) | (MT2 << 5)` (60_exceptions.md R364). -/
def maskBits (g : Globals) : Byte := 0#1 ++ bit g.mt1 ++ bit g.mt2 ++ 0#5

/-- `IrqSet(f)`: a masked flag is not set and not remembered; the line rises when it was low and a flag is set
(60_exceptions.md R364). -/
def irqSet (f : Byte) (s : State) : State :=
  let st := s.status ||| (f &&& ~~~maskBits s.glob &&& flagsBoth)
  if st.getLsbD 7 = false ∧ st &&& flagsBoth ≠ 0 then
    { s with status := st ||| 0x80 }.emit (.irqChanged true)
  else { s with status := st }

/-- `IrqClear(f)`: the line falls when the last flag is cleared (60_exceptions.md R365). -/
def irqClear (f : Byte) (s : State) : State :=
  let st := s.status &&& ~~~f
  if st.getLsbD 7 = true ∧ st &&& flagsBoth = 0 then
    { s with status := st &&& 0x7F }.emit (.irqChanged false)
  else { s with status := st }

/-- `TimerPeriod(0)`, in native sample periods (60_exceptions.md R368). -/
def timerPeriod1 (g : Globals) : Nat := (256 - g.t1.toNat) * 4

/-- `TimerPeriod(1)`, in native sample periods (60_exceptions.md R368). -/
def timerPeriod2 (g : Globals) : Nat := (256 - g.t2.toNat) * 16

/-- `StatusRead()` (60_exceptions.md R363). -/
def statusRead (s : State) : Byte :=
  if s.cfg.statusShowsSt then s.status ||| (0#6 ++ bit s.glob.st2 ++ bit s.glob.st1) else s.status

end Sys2Proof.Machine
end

