-- ==== Sys2Proof/Machine/GlobalRegs.lean ====
section
/-! DEFINITION. The writes to the global registers (47_register_writes.md section 3, and `RHYTHM`, section 6). A register
write of a variant that lacks the register changes nothing (R292, log entry 6). -/

namespace Sys2Proof.Machine

/-- `TEST`: `WSE` where the instance has it, otherwise nothing (47_register_writes.md R287, R292). -/
def writeTest (wse : Bool) (s : State) : State :=
  if s.cfg.hasWse then { s with glob := { s.glob with wse := wse } } else s

/-- `TEST` (47_register_writes.md R287). -/
def execTest (wse : Bool) (s : State) : Host.Outcome State Fault Refusal := command s (writeTest wse)

/-- `TIMER1` (47_register_writes.md R288). -/
def writeTimer1 (v : Byte) (s : State) : State := { s with glob := { s.glob with t1 := v } }

/-- `TIMER1` (47_register_writes.md R288). -/
def execTimer1 (v : Byte) (s : State) : Host.Outcome State Fault Refusal := command s (writeTimer1 v)

/-- `TIMER2` (47_register_writes.md R289). -/
def writeTimer2 (v : Byte) (s : State) : State := { s with glob := { s.glob with t2 := v } }

/-- `TIMER2` (47_register_writes.md R289). -/
def execTimer2 (v : Byte) (s : State) : Host.Outcome State Fault Refusal := command s (writeTimer2 v)

/-- The start bit of timer 2: a change is announced (47_register_writes.md R290). -/
def writeSt2 (v : Bool) (s : State) : State :=
  if s.glob.st2 = v then s
  else ({ s with glob := { s.glob with st2 := v } }).emit
    (.timerReload 1 (if v then timerPeriod2 s.glob else 0))

/-- The start bit of timer 1: a change is announced (47_register_writes.md R290). -/
def writeSt1 (v : Bool) (s : State) : State :=
  if s.glob.st1 = v then s
  else ({ s with glob := { s.glob with st1 := v } }).emit
    (.timerReload 0 (if v then timerPeriod1 s.glob else 0))

/-- `TCTL`: with bit 7 the flags are cleared and nothing else changes; otherwise the flags whose mask bit is written 1
are cleared, then the masks and the start bits are stored, timer 2 before timer 1 (47_register_writes.md R290). -/
def writeTctl (rst mt1 mt2 st2 st1 : Bool) (s : State) : State :=
  if rst then irqClear flagsBoth s
  else
    let s := irqClear (0#1 ++ bit mt1 ++ bit mt2 ++ 0#5) s
    let s := { s with glob := { s.glob with mt1 := mt1, mt2 := mt2 } }
    writeSt1 st1 (writeSt2 st2 s)

/-- `TCTL` (47_register_writes.md R290). -/
def execTctl (rst mt1 mt2 st2 st1 : Bool) (s : State) : Host.Outcome State Fault Refusal :=
  command s (writeTctl rst mt1 mt2 st2 st1)

/-- `MODE`: `NTS`, and `CSM` where the instance has it (47_register_writes.md R291). -/
def writeMode (csm nts : Bool) (s : State) : State :=
  { s with glob := { s.glob with nts := nts, csm := if s.cfg.hasCsm then csm else s.glob.csm } }

/-- `MODE` (47_register_writes.md R291). -/
def execMode (csm nts : Bool) (s : State) : Host.Outcome State Fault Refusal := command s (writeMode csm nts)

/-- `FOUROP`, V2 only (47_register_writes.md R293). -/
def writeFourop (ext : BitVec 6) (s : State) : State :=
  match s.cfg.variant with
  | .v1 => s
  | .v2 => { s with glob := { s.glob with ext := ext } }

/-- `FOUROP` (47_register_writes.md R293). -/
def execFourop (ext : BitVec 6) (s : State) : Host.Outcome State Fault Refusal := command s (writeFourop ext)

/-- `NEWMODE`, V2 only (47_register_writes.md R294). -/
def writeNewmode (new : Bool) (s : State) : State :=
  match s.cfg.variant with
  | .v1 => s
  | .v2 => { s with glob := { s.glob with new := new } }

/-- `NEWMODE` (47_register_writes.md R294). -/
def execNewmode (new : Bool) (s : State) : Host.Outcome State Fault Refusal := command s (writeNewmode new)

/-- The six rhythm operators with the bit that keys each (47_register_writes.md R302). -/
def rhythmTargets (g : Globals) : List (OpRef × Bool) :=
  [(⟨6, .one⟩, g.bd), (⟨6, .two⟩, g.bd), (⟨7, .one⟩, g.hh), (⟨7, .two⟩, g.sd), (⟨8, .one⟩, g.tom), (⟨8, .two⟩, g.tc)]

/-- The key events of the rhythm bits as they stand (47_register_writes.md R302). -/
def rhythmKeys (s : State) : State :=
  (rhythmTargets s.glob).foldl (fun t ob => t.updOp ob.1 (keyEvent (s.glob.rhy && ob.2) keyBitRhythm)) s

/-- `RHYTHM` (47_register_writes.md R302). -/
def writeRhythm (dam dvb rhy bd sd tom tc hh : Bool) (s : State) : State :=
  rhythmKeys { s with glob := { s.glob with
    dam := dam, dvb := dvb, rhy := rhy, bd := bd, sd := sd, tom := tom, tc := tc, hh := hh } }

/-- `RHYTHM` (47_register_writes.md R302). -/
def execRhythm (dam dvb rhy bd sd tom tc hh : Bool) (s : State) : Host.Outcome State Fault Refusal :=
  command s (writeRhythm dam dvb rhy bd sd tom tc hh)

end Sys2Proof.Machine
end

