-- ==== Sys2Proof/Machine/OperatorRegs.lean ====
section
/-! DEFINITION. The writes to the operator registers (47_register_writes.md section 4). None performs a key event or
touches the accumulator, the envelope or the feedback history (R295). -/

namespace Sys2Proof.Machine

/-- `OPCHAR` (47_register_writes.md R296). -/
def writeOpchar (o : OpRef) (am vib egt ksr : Bool) (mult : BitVec 4) (s : State) : State :=
  s.updOp o fun p => { p with am := am, vib := vib, egt := egt, ksr := ksr, mult := mult }

/-- `OPCHAR` (47_register_writes.md R296). -/
def execOpchar (o : OpRef) (am vib egt ksr : Bool) (mult : BitVec 4) (s : State) :
    Host.Outcome State Fault Refusal := command s (writeOpchar o am vib egt ksr mult)

/-- `OPLEVEL` (47_register_writes.md R297). -/
def writeOplevel (o : OpRef) (ksl : BitVec 2) (tl : BitVec 6) (s : State) : State :=
  s.updOp o fun p => { p with ksl := ksl, tl := tl }

/-- `OPLEVEL` (47_register_writes.md R297). -/
def execOplevel (o : OpRef) (ksl : BitVec 2) (tl : BitVec 6) (s : State) : Host.Outcome State Fault Refusal :=
  command s (writeOplevel o ksl tl)

/-- `OPAD` (47_register_writes.md R298). -/
def writeOpad (o : OpRef) (ar dr : BitVec 4) (s : State) : State :=
  s.updOp o fun p => { p with ar := ar, dr := dr }

/-- `OPAD` (47_register_writes.md R298). -/
def execOpad (o : OpRef) (ar dr : BitVec 4) (s : State) : Host.Outcome State Fault Refusal :=
  command s (writeOpad o ar dr)

/-- `OPSR` (47_register_writes.md R299). -/
def writeOpsr (o : OpRef) (sl rr : BitVec 4) (s : State) : State :=
  s.updOp o fun p => { p with sl := sl, rr := rr }

/-- `OPSR` (47_register_writes.md R299). -/
def execOpsr (o : OpRef) (sl rr : BitVec 4) (s : State) : Host.Outcome State Fault Refusal :=
  command s (writeOpsr o sl rr)

/-- The low two bits of a waveform number. -/
def lowWave (ws : BitVec 3) : BitVec 3 := ws &&& 3

/-- What an accepted `OPWAVE` write stores: V1 two bits; V2 three, of which `NEW = 0` keeps two in effect
(47_register_writes.md R304). -/
def storeWave (x : Variant) (new : Bool) (ws : BitVec 3) (p : Op) : Op :=
  match x with
  | .v1 => { p with wsReg := lowWave ws, wave := lowWave ws }
  | .v2 => { p with wsReg := ws, wave := if new then ws else lowWave ws }

/-- `OPWAVE`: dropped while `WSE = 0` where the instance has that gate (47_register_writes.md R304). -/
def writeOpwave (o : OpRef) (ws : BitVec 3) (s : State) : State :=
  if s.cfg.hasWse && !s.glob.wse then s
  else s.updOp o (storeWave s.cfg.variant s.glob.new ws)

/-- `OPWAVE` (47_register_writes.md R304). -/
def execOpwave (o : OpRef) (ws : BitVec 3) (s : State) : Host.Outcome State Fault Refusal :=
  command s (writeOpwave o ws)

end Sys2Proof.Machine
end

