-- ==== Sys2Proof/Machine/Port.lean ====
section
/-! DEFINITION. The port commands `WRA`, `WRA2`, `WRD` and `RD` (47_register_writes.md R285, R286, 60_exceptions.md
R363). -/

namespace Sys2Proof.Machine

/-- `WRA v` (47_register_writes.md R285). -/
def execWra (v : Byte) (s : State) : Host.Outcome State Fault Refusal :=
  command s fun s => ({ s with addr := 0#1 ++ v }).returnsIrq

/-- The address that a bank-1 address write latches. In V2 with `NEW = 0` the bank bit is dropped unless the number is
`0x05`; in V1 port 2 is port 0 (47_register_writes.md R285). -/
def bankOneAddr (x : Variant) (new : Bool) (v : Byte) : BitVec 9 :=
  match x with
  | .v1 => 0#1 ++ v
  | .v2 => if new = true ∨ v = 0x05 then 1#1 ++ v else 0#1 ++ v

/-- `WRA2 v` (47_register_writes.md R285). -/
def execWra2 (v : Byte) (s : State) : Host.Outcome State Fault Refusal :=
  command s fun s => ({ s with addr := bankOneAddr s.cfg.variant s.glob.new v }).returnsIrq

/-- The register write of a decoded format-R word. The decoder gives no other instruction for such a word. -/
def regOp (i : Instr) (s : State) : State :=
  match i with
  | .test wse => writeTest wse s
  | .timer1 t1 => writeTimer1 t1 s
  | .timer2 t2 => writeTimer2 t2 s
  | .tctl rst mt1 mt2 st2 st1 => writeTctl rst mt1 mt2 st2 st1 s
  | .mode csm nts => writeMode csm nts s
  | .fourop ext => writeFourop ext s
  | .newmode new => writeNewmode new s
  | .rhythm dam dvb rhy bd sd tom tc hh => writeRhythm dam dvb rhy bd sd tom tc hh s
  | .opchar o am vib egt ksr mult => writeOpchar o am vib egt ksr mult s
  | .oplevel o ksl tl => writeOplevel o ksl tl s
  | .opad o ar dr => writeOpad o ar dr s
  | .opsr o sl rr => writeOpsr o sl rr s
  | .opwave o ws => writeOpwave o ws s
  | .fnlo c lo => writeFnlo c lo s
  | .konblk c kon block hi => writeKonblk c kon block hi s
  | .fbcon c chb cha fb con => writeFbcon c chb cha fb con s
  | .wra _ | .wra2 _ | .wrd _ | .rd _ | .texp0 | .texp1 | .tick | .peakclr | .reset => s

/-- `RegWrite(bank, a, v)`: a reserved location changes nothing (47_register_writes.md R286, R292). -/
def regWrite (addr : BitVec 9) (v : Byte) (s : State) : State :=
  match decodeR s.cfg.variant (addr ++ v) with
  | .ok i => regOp i s
  | .error _ => s

/-- `WRD v` (47_register_writes.md R286). -/
def execWrd (v : Byte) (s : State) : Host.Outcome State Fault Refusal :=
  command s fun s => (regWrite s.addr v s).returnsIrq

/-- The port that a port number selects: modulo 2 in V1, modulo 4 in V2 (20_memory.md R72). -/
def portOf (x : Variant) (p : BitVec 2) : Nat :=
  match x with
  | .v1 => p.toNat % 2
  | .v2 => p.toNat % 4

/-- `RD p` (60_exceptions.md R363). -/
def execRd (p : BitVec 2) (s : State) : Host.Outcome State Fault Refusal :=
  command s fun s => s.returns (.byte (if portOf s.cfg.variant p = 0 then statusRead s else 0))

end Sys2Proof.Machine
end

