-- ==== Sys2Proof/Machine/Reset.lean ====
section
/-! DEFINITION. `RESET` (70_reset_and_hazards.md R400), and the reset write sequence `SEQ` (R402). -/

namespace Sys2Proof.Machine

/-- The events of a `RESET`: the line falls, the timers stop; the first `RESET` of an instance emits none
(70_reset_and_hazards.md R400). -/
def resetEvents (s : State) : List Emitted :=
  if s.live then
    (if s.irq then [.irqChanged false] else []) ++
    (if s.glob.st2 then [.timerReload 1 0] else []) ++
    (if s.glob.st1 then [.timerReload 0 0] else [])
  else []

/-- `RESET`: every element of state at its reset value. The configuration and what the host has still to issue are no
state of the instance and stay (log entry 15). -/
def execReset (s : State) : Host.Outcome State Fault Refusal :=
  .next { State.resetOf s.cfg with input := s.input, out := { result := .none, events := resetEvents s } }

/-- The register numbers from `0xFF` down to `0x20`. -/
def seqNumbers : List Byte := (List.range 224).map fun k => BitVec.ofNat 8 (0xFF - k)

/-- `SEQ`, the reset write sequence (70_reset_and_hazards.md R402). `RESET` is defined by its end state and not by this
sequence. -/
def resetSeq (x : Variant) : List Command :=
  traceW 0x001 0x00 ++ traceW 0x002 0x00 ++ traceW 0x003 0x00 ++ traceW 0x004 0x80 ++ traceW 0x004 0x00 ++
  traceW 0x008 0x00 ++ seqNumbers.flatMap (fun a => traceW (0#1 ++ a) 0x00) ++
  match x with
  | .v1 => []
  | .v2 =>
    traceW 0x105 0x01 ++ seqNumbers.flatMap (fun a => traceW (1#1 ++ a) 0x00) ++ traceW 0x104 0x00 ++
      traceW 0x105 0x00

end Sys2Proof.Machine
end

