-- ==== Sys2Proof/Machine/Envelope.lean ====
section
/-! DEFINITION. The envelope generator (42_envelope_generator.md): the step of one operator and step 6 of a tick. -/

namespace Sys2Proof.Machine

/-- `EgDue(sh)` (42_envelope_generator.md R182). -/
def egDue (s : State) (sh : Nat) : Bool := s.gens.egCnt.toNat &&& (1 <<< sh - 1) == 0

/-- `EgInc(sh, sel)` (42_envelope_generator.md R182). -/
def egIncOf (s : State) (sh sel : Nat) : Nat := egIncTab s.cfg sel ((s.gens.egCnt.toNat >>> sh) &&& 7)

/-- The attenuation an attack step computes, before it is compared with 0:
`vol + (((~vol) * inc) >>a 3)` (42_envelope_generator.md R190). -/
def attackValue (vol : BitVec 9) (inc : Nat) : Int :=
  (vol.toNat : Int) + asr ((-(vol.toNat : Int) - 1) * (inc : Int)) 3

/-- Attack (42_envelope_generator.md R190, R191). -/
def attackStep (s : State) (o : OpRef) : Op :=
  let p := s.op o
  let (sh, sel) := egPar s o .attack
  if egDue s sh then
    let v := attackValue p.vol (egIncOf s sh sel)
    if v ≤ 0 then { p with vol := 0, phase := .dec } else { p with vol := BitVec.ofInt 9 v }
  else p

/-- Decay (42_envelope_generator.md R192). -/
def decayStep (s : State) (o : OpRef) : Op :=
  let p := s.op o
  let (sh, sel) := egPar s o .decay
  if egDue s sh then
    let v := p.vol.toNat + egIncOf s sh sel
    { p with vol := BitVec.ofNat 9 v, phase := if slEff s.cfg p.sl ≤ v then .sus else .dec }
  else p

/-- Sustain: held while `EGT = 1`, rising at the release rate while `EGT = 0` (42_envelope_generator.md R193, R194). -/
def sustainStep (s : State) (o : OpRef) : Op :=
  let p := s.op o
  if p.egt then p
  else
    let (sh, sel) := egPar s o .release
    if egDue s sh then { p with vol := BitVec.ofNat 9 (min 511 (p.vol.toNat + egIncOf s sh sel)) } else p

/-- Release (42_envelope_generator.md R195). -/
def releaseStep (s : State) (o : OpRef) : Op :=
  let p := s.op o
  let (sh, sel) := egPar s o .release
  if egDue s sh then
    let v := p.vol.toNat + egIncOf s sh sel
    if 511 ≤ v then { p with vol := 511, phase := .off } else { p with vol := BitVec.ofNat 9 v }
  else p

/-- `EgStep(c, s)` (42_envelope_generator.md R187, R196). -/
def egStep (s : State) (o : OpRef) : Op :=
  match (s.op o).phase with
  | .att => attackStep s o
  | .dec => decayStep s o
  | .sus => sustainStep s o
  | .rel => releaseStep s o
  | .off => s.op o

/-- One envelope step: the counter first, then every operator (48_sample_tick.md R345). -/
def egTick (s : State) : State :=
  let s := { s with gens := { s.gens with egCnt := s.gens.egCnt + 1 } }
  s.mapChans fun c ch => ch.mapOps fun sl _ => egStep s ⟨c, sl⟩

/-- Step 6 of a tick: as many envelope steps as `EG_OVF` fits into the accumulated time (48_sample_tick.md R345). The
rule's loop subtracts `EG_OVF` while it can; here the number of rounds is the quotient and what is left the remainder
(log entry 10). -/
def egAdvance (s : State) : State :=
  let t := s.gens.egTimer.toNat + s.cfg.rates.egAdd.toNat
  let ovf := s.cfg.rates.egOvf.toNat
  Nat.repeat egTick (t / ovf) { s with gens := { s.gens with egTimer := BitVec.ofNat 32 (t % ovf) } }

end Sys2Proof.Machine
end

