-- ==== Sys2Proof/Machine/Lfo.lean ====
section
/-! DEFINITION. The low-frequency oscillators and the noise generator (46_lfo_noise.md): steps 1 and 8 of a tick. -/

namespace Sys2Proof.Machine

/-- `210 << 24`, the bound of the tremolo counter (46_lfo_noise.md R271). -/
def lfoAmWrap : Nat := 210 * 2 ^ 24

/-- The tremolo counter one tick on (46_lfo_noise.md R271). -/
def lfoAmNext (cfg : Config) (cnt : BitVec 32) : BitVec 32 :=
  let t := cnt.toNat + cfg.rates.lfoAmInc.toNat
  BitVec.ofNat 32 (if lfoAmWrap ≤ t then t - lfoAmWrap else t)

/-- Step 1 of a tick: the tremolo advance, then the vibrato advance (48_sample_tick.md R342, 46_lfo_noise.md R271, R274). -/
def lfoAdvance (s : State) : State :=
  { s with gens := { s.gens with
      lfoAmCnt := lfoAmNext s.cfg s.gens.lfoAmCnt
      lfoPmCnt := s.gens.lfoPmCnt + s.cfg.rates.lfoPmInc } }

/-- `LFO_AM`, the tremolo value of a tick (46_lfo_noise.md R273). -/
def lfoAm (s : State) : Nat :=
  let v := lfoAmTab s.cfg (s.gens.lfoAmCnt.toNat >>> 24)
  if s.glob.dam then v else v >>> 2

/-- `LFO_PM_STEP`, the vibrato step of a tick (46_lfo_noise.md R275). -/
def lfoPmStep (s : State) : Nat := (s.gens.lfoPmCnt.toNat >>> 24) &&& 7

/-- One noise step. The exclusive-or sets bit 23 for a moment and the shift brings it back (46_lfo_noise.md R278). -/
def noiseStep (r : BitVec 23) : BitVec 23 :=
  let x : BitVec 24 := r.setWidth 24
  ((if r.getLsbD 0 then x ^^^ 0x800302 else x) >>> 1).setWidth 23

/-- Step 8 of a tick: `k` noise steps, `k` the integer part of the step accumulator (46_lfo_noise.md R279). -/
def noiseAdvance (s : State) : State :=
  let t := s.gens.noiseP.toNat + s.cfg.rates.noiseF.toNat
  { s with gens := { s.gens with
      noiseP := BitVec.ofNat 16 t
      noiseRng := Nat.repeat noiseStep (t >>> 16) s.gens.noiseRng } }

end Sys2Proof.Machine
end

