-- ==== Sys2Proof/Machine/PhaseGen.lean ====
section
/-! DEFINITION. The phase generator (41_phase_generator.md): step 7 of a tick. -/

namespace Sys2Proof.Machine

/-- The vibrato offset of a frequency code at this tick (41_phase_generator.md R162, 40_tables.md R152). -/
def vibratoOffset (s : State) (bf : BitVec 13) : Int :=
  lfoPmTab s.cfg (bf.extractLsb' 7 3).toNat s.glob.dvb (lfoPmStep s)

/-- What a tick adds to the accumulator of an operator: the increment of the frequency code, with vibrato of the code
moved by the offset, modulo `2^13`, so that a carry runs into the block (41_phase_generator.md R162, R163). -/
def phaseIncrement (s : State) (o : OpRef) : BitVec 32 :=
  if (s.op o).vib then
    let bf := blockFnum s o.ch
    let off := vibratoOffset s bf
    if off ≠ 0 then incrOf s.cfg (bf + BitVec.ofInt 13 off) (s.op o).mult else incr s o
  else incr s o

/-- `PhaseStep(c, s)` (41_phase_generator.md R162). -/
def phaseStep (s : State) (o : OpRef) : Op := { s.op o with cnt := (s.op o).cnt + phaseIncrement s o }

/-- Step 7 of a tick: every accumulator advances (48_sample_tick.md R346). -/
def phaseAdvance (s : State) : State :=
  s.mapChans fun c ch => ch.mapOps fun sl _ => phaseStep s ⟨c, sl⟩

end Sys2Proof.Machine
end

