-- ==== Sys2Proof/Machine/OpOutput.lean ====
section
/-! DEFINITION. The output of one operator (43_operator_output.md): combined attenuation, exponential converter,
waveform lookup, and the feedback of Slot 1. -/

namespace Sys2Proof.Machine

/-- `env(c, s)`, the combined attenuation (43_operator_output.md R210). -/
def env (s : State) (o : OpRef) : Nat :=
  tll s o + (s.op o).vol.toNat + (if (s.op o).am then lfoAm s else 0)

/-- `exp_out(p)` (43_operator_output.md R212). -/
def expOut (cfg : Config) (p : Nat) : Int :=
  if tlLen cfg.variant ≤ p then 0
  else
    let m : Nat := expTab cfg (p / 2 % 256) >>> (p >>> 9)
    if p % 2 = 1 then -(m : Int) else (m : Int)

/-- `OpOut(o, x, e)`, the index reduced modulo 1024 for every sign (43_operator_output.md R213). -/
def opOut (cfg : Config) (p : Op) (x : Int) (e : Nat) : Int :=
  expOut cfg (e <<< 4 + waveTab cfg p.wave (x % 1024).toNat)

/-- `o.cnt >> 16`, the integer part of the accumulator (10_state.md R26). -/
def Op.index (p : Op) : Nat := p.cnt.toNat >>> 16

/-- An operator is below the quiet threshold (43_operator_output.md R214). -/
def audible (s : State) (e : Nat) : Bool := e < envQuiet s.cfg.variant

/-- The feedback modulation in index units: the sum of the history shifted left by `fb_shift` and arithmetically right
by 16, none for `FB = 0` (43_operator_output.md R215, R216). -/
def fbMod (s : State) (c : Chan) (sum : Int) : Int :=
  let pm := if (s.chan c).fb = 0 then 0 else sum * 2 ^ fbShift s c
  asr pm 16

/-- `Slot1(c)`: the state with the feedback history shifted, `cur` and `prev` (43_operator_output.md R215). -/
def slot1 (s : State) (c : Chan) : State × Int × Int :=
  let o : OpRef := ⟨c, .one⟩
  let p := s.op o
  let e := env s o
  let new : BitVec 14 :=
    if audible s e then
      BitVec.ofInt 14 (opOut s.cfg p ((p.index : Int) + fbMod s c (p.fb0.toInt + p.fb1.toInt)) e)
    else 0
  (s.updOp o fun q => { q with fb0 := p.fb1, fb1 := new }, new.toInt, p.fb1.toInt)

/-- An operator without feedback at a given phase index: `OpOut` below the quiet threshold, 0 at or above it
(43_operator_output.md R214, R218, 45_rhythm.md R254 to R257). -/
def opAt (s : State) (o : OpRef) (x : Int) : Int :=
  if audible s (env s o) then opOut s.cfg (s.op o) x (env s o) else 0

/-- `SlotN(c, s, pm)` (43_operator_output.md R218). -/
def slotN (s : State) (o : OpRef) (pm : Int) : Int := opAt s o (((s.op o).index : Int) + pm)

/-- `chanout[c] <- chanout[c] + x`. -/
def addOut (s : State) (c : Chan) (x : Int) : State :=
  s.updChan c fun ch => { ch with chanout := ch.chanout + BitVec.ofInt 32 x }

end Sys2Proof.Machine
end

