-- ==== Sys2Proof/Machine/Router.lean ====
section
/-! DEFINITION. The channel router (44_channel_router.md) and the rhythm synthesis (45_rhythm.md): step 3 of a tick,
and the output mix, step 4. -/

namespace Sys2Proof.Machine

/-! ### Two-operator channels -/

/-- `Chan2Op(c)` (44_channel_router.md R232, R233). -/
def chan2Op (s : State) (c : Chan) : State :=
  let (t, cur, prev) := slot1 s c
  let s1 := if s.cfg.slot1Delayed then prev else cur
  if (s.chan c).con then addOut (addOut t c s1) c (slotN t ⟨c, .two⟩ 0)
  else addOut t c (slotN t ⟨c, .two⟩ s1)

/-! ### Four-operator voices -/

/-- Topology 0: 1 → 2 → 3 → 4 (44_channel_router.md R235). -/
def topology0 (s : State) (m n : Chan) (s1 : Int) : State :=
  let s2 := slotN s ⟨m, .two⟩ s1
  let s3 := slotN s ⟨n, .one⟩ s2
  addOut s n (slotN s ⟨n, .two⟩ s3)

/-- Topology 1: (1 → 2) + (3 → 4) (44_channel_router.md R236). -/
def topology1 (s : State) (m n : Chan) (s1 : Int) : State :=
  let s2 := slotN s ⟨m, .two⟩ s1
  let s3 := slotN s ⟨n, .one⟩ 0
  addOut (addOut s m s2) n (slotN s ⟨n, .two⟩ s3)

/-- Topology 2: 1 + (2 → 3 → 4) (44_channel_router.md R237). -/
def topology2 (s : State) (m n : Chan) (s1 : Int) : State :=
  let s2 := slotN s ⟨m, .two⟩ 0
  let s3 := slotN s ⟨n, .one⟩ s2
  addOut (addOut s m s1) n (slotN s ⟨n, .two⟩ s3)

/-- Topology 3: 1 + (2 → 3) + 4 (44_channel_router.md R238). -/
def topology3 (s : State) (m n : Chan) (s1 : Int) : State :=
  let s2 := slotN s ⟨m, .two⟩ 0
  let s3 := slotN s ⟨n, .one⟩ s2
  addOut (addOut (addOut s m s1) n s3) n (slotN s ⟨n, .two⟩ 0)

/-- `Chan4Op(m)`: the topology is `(ch[m].CON << 1) | ch[n].CON`, and operator 1 hands on the output of the same tick
(44_channel_router.md R234). DESIGN CHOICE, unsafe: it does so also in a V2 instance with `SLOT1_DELAYED` set, where
43_operator_output.md R217 would take the output of the tick before (log entry 11). -/
def chan4Op (s : State) (m : Chan) : State :=
  let n := pairHigh m
  let (t, s1, _) := slot1 s m
  match (s.chan m).con, (s.chan n).con with
  | false, false => topology0 t m n s1
  | false, true => topology1 t m n s1
  | true, false => topology2 t m n s1
  | true, true => topology3 t m n s1

/-! ### Rhythm -/

/-- `c1`, the integer part of the accumulator of channel 7 Slot 1 (45_rhythm.md R253). -/
def rhythmC1 (s : State) : Nat := (s.op ⟨7, .one⟩).index

/-- `c2`, the integer part of the accumulator of channel 8 Slot 2 (45_rhythm.md R253). -/
def rhythmC2 (s : State) : Nat := (s.op ⟨8, .two⟩).index

/-- The noise bit (45_rhythm.md R253). -/
def noiseBit (s : State) : Bool := s.gens.noiseRng.getLsbD 0

/-- `res1 | res2` of two counter values (45_rhythm.md R253). -/
def resBit (c1 c2 : Nat) : Bool :=
  (((c1.testBit 2) ^^ (c1.testBit 7)) || c1.testBit 3) || ((c2.testBit 3) ^^ (c2.testBit 5))

/-- The phase index of the High-Hat (45_rhythm.md R254). -/
def highHatIndex (c1 c2 : Nat) (noise : Bool) : Nat :=
  let ph := if resBit c1 c2 then 0x234 else 0x0D0
  if noise then (if ph.testBit 9 then 0x2D0 else 0x034) else ph

/-- The phase index of the Snare Drum (45_rhythm.md R255). -/
def snareIndex (c1 : Nat) (noise : Bool) : Nat :=
  let ph := if c1.testBit 8 then 0x200 else 0x100
  if noise then ph ^^^ 0x100 else ph

/-- The phase index of the Top Cymbal (45_rhythm.md R257). -/
def cymbalIndex (c1 c2 : Nat) : Nat := if resBit c1 c2 then 0x300 else 0x100

/-- The Bass Drum: Slot 1 one tick late in both variants, and off the bus with `CON = 1` (45_rhythm.md R252). -/
def bassDrum (s : State) : State :=
  let (t, _, prev) := slot1 s 6
  addOut t 6 (2 * slotN t ⟨6, .two⟩ (if (s.chan 6).con then 0 else prev))

/-- The High-Hat (45_rhythm.md R254). -/
def highHat (s : State) : State :=
  addOut s 7 (2 * opAt s ⟨7, .one⟩ (highHatIndex (rhythmC1 s) (rhythmC2 s) (noiseBit s) : Nat))

/-- The Snare Drum (45_rhythm.md R255). -/
def snareDrum (s : State) : State :=
  addOut s 7 (2 * opAt s ⟨7, .two⟩ (snareIndex (rhythmC1 s) (noiseBit s) : Nat))

/-- The Tom-Tom (45_rhythm.md R256). -/
def tomTom (s : State) : State := addOut s 8 (2 * slotN s ⟨8, .one⟩ 0)

/-- The Top Cymbal (45_rhythm.md R257). -/
def topCymbal (s : State) : State :=
  addOut s 8 (2 * opAt s ⟨8, .two⟩ (cymbalIndex (rhythmC1 s) (rhythmC2 s) : Nat))

/-- `Rhythm()` (45_rhythm.md R251). -/
def rhythmStep (s : State) : State := topCymbal (tomTom (snareDrum (highHat (bassDrum s))))

/-! ### Path selection and mix -/

/-- What a channel is in a tick (44_channel_router.md R231). -/
inductive Role where
  | rhythm | master | slave | twoOp
deriving DecidableEq, Repr

/-- `Role(c)`: the first row that holds (44_channel_router.md R231). -/
def role (s : State) (c : Chan) : Role :=
  if s.glob.rhy = true ∧ 6 ≤ c.val ∧ c.val ≤ 8 then .rhythm
  else if isMaster s c then .master
  else if isSlave s c then .slave
  else .twoOp

/-- The contribution of channel `c` (48_sample_tick.md R344). -/
def chanStep (s : State) (c : Chan) : State :=
  match role s c with
  | .rhythm => if c = 6 then rhythmStep s else s
  | .master => chan4Op s c
  | .slave => s
  | .twoOp => chan2Op s c

/-- Step 2 of a tick (48_sample_tick.md R343). -/
def clearOut (s : State) : State := s.mapChans fun _ ch => { ch with chanout := 0 }

/-- Step 3 of a tick (48_sample_tick.md R344). -/
def channelsStep (s : State) : State := s.chanList.foldl chanStep s

/-- The sum of the buses of the channels that `on` selects (44_channel_router.md R241). -/
def busSum (s : State) (on : Channel → Bool) : Int :=
  (s.chanList.map fun c => if on (s.chan c) then (s.chan c).chanout.toInt else 0).sum

/-- Step 4 of a tick: V1 has one output presented as left and right, V2 the enabled buses (44_channel_router.md R241). -/
def mixStep (s : State) : State :=
  match s.cfg.variant with
  | .v1 => { s with mixL := BitVec.ofInt 32 (busSum s fun _ => true)
                    mixR := BitVec.ofInt 32 (busSum s fun _ => true) }
  | .v2 => { s with mixL := BitVec.ofInt 32 (busSum s (·.panL))
                    mixR := BitVec.ofInt 32 (busSum s (·.panR)) }

/-- One channel of the source's per-voice separated buffers (44_channel_router.md R241). -/
def voiceOut (s : State) (c : Chan) : BitVec 32 × BitVec 32 :=
  let ch := s.chan c
  match s.cfg.variant with
  | .v1 => (ch.chanout, ch.chanout)
  | .v2 => (if ch.panL then ch.chanout else 0, if ch.panR then ch.chanout else 0)

end Sys2Proof.Machine
end

