-- ==== Sys2Proof/Machine/Tick.lean ====
section
/-! DEFINITION. `TICK` and `PEAKCLR` (48_sample_tick.md). -/

namespace Sys2Proof.Machine

/-- Step 5 of a tick (48_sample_tick.md R348). -/
def peakStep (s : State) : State :=
  s.mapChans fun _ ch =>
    { ch with peak := BitVec.ofNat 32 (max ch.peak.toNat ch.chanout.toInt.natAbs) }

/-- Steps 1 to 4: the sample of a tick (48_sample_tick.md R341). -/
def sampleSteps (s : State) : State := mixStep (channelsStep (clearOut (lfoAdvance s)))

/-- Steps 5 to 8: what a tick leaves for the next one (48_sample_tick.md R341). -/
def advanceSteps (s : State) : State := noiseAdvance (phaseAdvance (egAdvance (peakStep s)))

/-- The eight steps in their order (48_sample_tick.md R341). -/
def tickSteps (s : State) : State := advanceSteps (sampleSteps s)

/-- `TICK` (48_sample_tick.md R341). -/
def execTick (s : State) : Host.Outcome State Fault Refusal := command s tickSteps

/-- Every `peak[c]` at 0 (48_sample_tick.md R349). -/
def clearPeaks (s : State) : State := s.mapChans fun _ ch => { ch with peak := 0 }

/-- `PEAKCLR` (48_sample_tick.md R349). -/
def execPeakclr (s : State) : Host.Outcome State Fault Refusal := command s clearPeaks

end Sys2Proof.Machine
end

