-- ==== Sys2Proof/Machine/Timers.lean ====
section
/-! DEFINITION. `TEXP 0` and `TEXP 1`: a timer has expired (60_exceptions.md R369). -/

namespace Sys2Proof.Machine

/-- The CSM mechanism: every operator keyed on and at once off through its own bit (60_exceptions.md R369). -/
def csmKeys (s : State) : State :=
  if s.cfg.hasCsm && s.glob.csm then
    s.mapChans fun _ ch => ch.mapOps fun _ p => keyOff keyBitCsm (keyOn keyBitCsm p)
  else s

/-- `TEXP 0` (60_exceptions.md R369). -/
def execTexp0 (s : State) : Host.Outcome State Fault Refusal :=
  command s fun s =>
    let s := csmKeys (irqSet flagTimer1 s)
    (s.emit (.timerReload 0 (timerPeriod1 s.glob))).returnsIrq

/-- `TEXP 1` (60_exceptions.md R369). -/
def execTexp1 (s : State) : Host.Outcome State Fault Refusal :=
  command s fun s =>
    let s := irqSet flagTimer2 s
    (s.emit (.timerReload 1 (timerPeriod2 s.glob))).returnsIrq

end Sys2Proof.Machine
end

