-- ==== Sys2Proof/Machine/Dispatch.lean ====
section
/-! DEFINITION. The meaning of every instruction, one arm for each constructor. -/

namespace Sys2Proof.Machine

def exec (i : Instr) (s : State) : Host.Outcome State Fault Refusal :=
  match i with
  | .wra v => Sys2Proof.Machine.execWra v s
  | .wra2 v => Sys2Proof.Machine.execWra2 v s
  | .wrd v => Sys2Proof.Machine.execWrd v s
  | .rd p => Sys2Proof.Machine.execRd p s
  | .texp0 => Sys2Proof.Machine.execTexp0 s
  | .texp1 => Sys2Proof.Machine.execTexp1 s
  | .tick => Sys2Proof.Machine.execTick s
  | .peakclr => Sys2Proof.Machine.execPeakclr s
  | .reset => Sys2Proof.Machine.execReset s
  | .test wse => Sys2Proof.Machine.execTest wse s
  | .timer1 t1 => Sys2Proof.Machine.execTimer1 t1 s
  | .timer2 t2 => Sys2Proof.Machine.execTimer2 t2 s
  | .tctl rst mt1 mt2 st2 st1 => Sys2Proof.Machine.execTctl rst mt1 mt2 st2 st1 s
  | .mode csm nts => Sys2Proof.Machine.execMode csm nts s
  | .fourop ext => Sys2Proof.Machine.execFourop ext s
  | .newmode new => Sys2Proof.Machine.execNewmode new s
  | .rhythm dam dvb rhy bd sd tom tc hh => Sys2Proof.Machine.execRhythm dam dvb rhy bd sd tom tc hh s
  | .opchar o am vib egt ksr mult => Sys2Proof.Machine.execOpchar o am vib egt ksr mult s
  | .oplevel o ksl tl => Sys2Proof.Machine.execOplevel o ksl tl s
  | .opad o ar dr => Sys2Proof.Machine.execOpad o ar dr s
  | .opsr o sl rr => Sys2Proof.Machine.execOpsr o sl rr s
  | .opwave o ws => Sys2Proof.Machine.execOpwave o ws s
  | .fnlo c lo => Sys2Proof.Machine.execFnlo c lo s
  | .konblk c kon block hi => Sys2Proof.Machine.execKonblk c kon block hi s
  | .fbcon c chb cha fb con => Sys2Proof.Machine.execFbcon c chb cha fb con s

end Sys2Proof.Machine
end

