-- ==== Sys2Proof/Machine/Step.lean ====
section
/-! DEFINITION. One step: the next command the host has issued is taken and executed. The hardware fetches nothing
(10_state.md R39); with no command issued the state stays as it is (60_exceptions.md R375, log entry 3). -/

namespace Sys2Proof.Machine

/-- One step. -/
def step (s : State) : Host.Outcome State Fault Refusal :=
  match nextCommand s with
  | none => .next s
  | some (i, t) => exec i t

/-- The state whose next step runs a word of the opcode table (log entry 7). -/
def State.withFetchWord (s : State) (nbits w : Nat) : State := placeWord s nbits w

end Sys2Proof.Machine
end

