-- ==== Sys2Proof/WellFormed.lean ====
section
/-! DEFINITION. Which instructions a variant has (30_encoding.md R108). Every other bound on an operand is in its type. -/

namespace Sys2Proof

/-- The channel exists in the variant (00_scope.md R8: `NCH` is 9 or 18). -/
def chanExists : Variant → Chan → Bool
  | .v1, c => c.val < 9
  | .v2, _ => true

/-- The instruction exists in the variant: V1 has no bank 1, so no `WRA2`, no `FOUROP`, no `NEWMODE` and no register
of channels 9 to 17 (30_encoding.md R103, R106, R108). -/
def Instr.wf (x : Variant) : Instr → Bool
  | .wra _ => true
  | .wra2 _ => x == .v2
  | .wrd _ => true
  | .rd _ => true
  | .texp0 => true
  | .texp1 => true
  | .tick => true
  | .peakclr => true
  | .reset => true
  | .test _ => true
  | .timer1 _ => true
  | .timer2 _ => true
  | .tctl _ _ _ _ _ => true
  | .mode _ _ => true
  | .fourop _ => x == .v2
  | .newmode _ => x == .v2
  | .rhythm _ _ _ _ _ _ _ _ => true
  | .opchar o _ _ _ _ _ => chanExists x o.ch
  | .oplevel o _ _ => chanExists x o.ch
  | .opad o _ _ => chanExists x o.ch
  | .opsr o _ _ => chanExists x o.ch
  | .opwave o _ => chanExists x o.ch
  | .fnlo c _ => chanExists x c
  | .konblk c _ _ _ => chanExists x c
  | .fbcon c _ _ _ _ => chanExists x c

end Sys2Proof
end

