-- ==== Sys2Proof/Safety.lean ====
section
/-! DEFINITION. What a safe state is (the invariants of 10_state.md R42, with 60_exceptions.md R365), and the terms the
claims are stated in. -/

namespace Sys2Proof.Machine

/-! ### The bounds a configuration meets -/

/-- The nine bounds of the tables of a variant (40_tables.md R153). -/
def tablesBounded (x : Variant) (t : Tables) : Bool :=
  t.wave.all (·.all (·.all (· ≤ tlLen x))) && t.exp.all (·.all (· ≤ 4084)) && t.mul2.all (· ≤ 30) &&
  t.ksl.all (·.all (· ≤ 224)) && t.slEff.all (· ≤ 496) && t.egInc.all (·.all (· ≤ 8)) &&
  t.rateShift.all (·.all (· ≤ 12)) && t.lfoAm.all (·.all (· ≤ 26)) && t.lfoPm.all (·.all fun v => v.natAbs ≤ 7)

/-- A configuration the rules rely on: its tables within their bounds, `EG_OVF` positive, and `LFO_AM_INC` at most
`2^24` (40_tables.md R153, 46_lfo_noise.md R271, 48_sample_tick.md R345). -/
def boundedConfig (cfg : Config) : Bool :=
  tablesBounded cfg.variant cfg.tables && 0 < cfg.rates.egOvf.toNat && cfg.rates.lfoAmInc.toNat ≤ 2 ^ 24

/-- The three open parameters that follow the variant are at their defaults (93_implementation_defined.md section 2). -/
def variantDefaults (cfg : Config) : Bool :=
  cfg.slot1Delayed == (cfg.variant == .v1) && cfg.hasCsm == (cfg.variant == .v1) && cfg.hasWse == (cfg.variant == .v1)

/-! ### Safe states (10_state.md R42) -/

/-- The status byte is consistent: `IRQ` exactly when a flag is set, and bits 4:0 clear (60_exceptions.md R365). -/
def statusOk (st : Byte) : Bool := (st.getLsbD 7 == (st.getLsbD 6 || st.getLsbD 5)) && st &&& 0x1F == 0

/-- The invariants of one operator (10_state.md R42; the bound in `DEC` is 42_envelope_generator.md R192; the bit of the CSM
mechanism is set and cleared within one command, 60_exceptions.md R369). -/
structure OpSafe (p : Op) : Prop where
  off_vol : p.phase = .off → p.vol = 511
  dec_vol : p.phase = .dec → p.vol.toNat ≤ 499
  fb0_le  : p.fb0.toInt.natAbs ≤ 4084
  fb1_le  : p.fb1.toInt.natAbs ≤ 4084
  key_csm : p.key.getLsbD 2 = false

/-- The bound of a channel's bus whatever its role was at the last tick: 16336 for the two channels that carry two
doubled instruments, 8168 for the others (10_state.md R42, 44_channel_router.md R239, 45_rhythm.md R258). -/
def busBound (c : Chan) : Nat := if c = 7 ∨ c = 8 then 16336 else 8168

/-- The invariants of one channel. -/
structure ChanSafe (c : Chan) (ch : Channel) : Prop where
  chanout_le : ch.chanout.toInt.natAbs ≤ busBound c
  peak_le    : ch.peak.toNat ≤ busBound c
  slot1      : OpSafe ch.slot1
  slot2      : OpSafe ch.slot2

/-- The invariants that hold after reset and after every command (10_state.md R42), with what V1 lacks: the bank bit
(R33), waveforms past 3 (R22) and the channels 9 to 17 (00_scope.md R8). -/
structure SafeState (s : State) : Prop where
  cfg_bounded  : boundedConfig s.cfg = true
  lfoAm_lt     : s.gens.lfoAmCnt.toNat < lfoAmWrap
  noise_ne     : s.gens.noiseRng ≠ 0
  egTimer_lt   : s.gens.egTimer.toNat < s.cfg.rates.egOvf.toNat
  status_ok    : statusOk s.status = true
  mixL_lt      : s.mixL.toInt.natAbs < 2 ^ 19
  mixR_lt      : s.mixR.toInt.natAbs < 2 ^ 19
  chans_safe   : ∀ c, ChanSafe c (s.chan c)
  v1_bank      : s.cfg.variant = .v1 → s.addr.getLsbD 8 = false
  v1_wave      : s.cfg.variant = .v1 → ∀ o, (s.op o).wave.toNat < 4 ∧ (s.op o).wsReg.toNat < 4
  absent_reset : ∀ c, s.hasChan c = false → s.chan c = Channel.reset

/-- A state in which nothing sounds: every operator `OFF` at full attenuation with an empty feedback history
(48_sample_tick.md R351). -/
def SilentState (s : State) : Prop :=
  ∀ o, (s.op o).phase = .off ∧ (s.op o).vol = 511 ∧ (s.op o).fb0 = 0 ∧ (s.op o).fb1 = 0

/-! ### Frames -/

/-- A command that returned nothing and emitted nothing. -/
def noOutput : Output := { result := .none, events := [] }

/-- The fields of a channel outside its operators. -/
def Channel.own (ch : Channel) : Channel := { ch with slot1 := Op.reset, slot2 := Op.reset }

/-- Everything but the outputs of the command and the channels is as before. -/
def SameExceptChans (s t : State) : Prop := t = { s with out := t.out, chans := t.chans }

/-- Only operator `o` may differ (and the outputs of the command). -/
def OnlyOp (o : OpRef) (s t : State) : Prop :=
  SameExceptChans s t ∧ (∀ c, c ≠ o.ch → t.chan c = s.chan c) ∧
    t.chan o.ch = (s.chan o.ch).setOp o.slot (t.op o)

/-- Only the fields of channel `c` outside its operators may differ (and the outputs of the command). -/
def OnlyChanFields (c : Chan) (s t : State) : Prop :=
  SameExceptChans s t ∧ (∀ d, d ≠ c → t.chan d = s.chan d) ∧ ∀ sl, (t.chan c).op sl = (s.chan c).op sl

/-- The channel without what a tick writes: its output registers and its operators. -/
def Channel.programmed (ch : Channel) : Channel :=
  { ch with chanout := 0, peak := 0, slot1 := Op.reset, slot2 := Op.reset }

/-- The operator without what a tick writes: accumulator, envelope and feedback history. -/
def Op.programmed (p : Op) : Op := { p with cnt := 0, phase := .off, vol := 0, fb0 := 0, fb1 := 0 }

/-- The state without what belongs to the timers: presets, start bits, masks, flags and the interrupt line. -/
def State.withoutTimers (s : State) : State :=
  { s with status := 0, glob := { s.glob with t1 := 0, t2 := 0, st1 := false, st2 := false, mt1 := false, mt2 := false } }

/-- The state without its peak registers. -/
def State.withoutPeaks (s : State) : State := { s with chans := s.chans.map fun ch => { ch with peak := 0 } }

/-- The loop of step 6 of a tick as 48_sample_tick.md R345 writes it, at most `fuel` rounds. -/
def egLoop : Nat → Nat → State → State
  | 0, timer, s => { s with gens := { s.gens with egTimer := BitVec.ofNat 32 timer } }
  | fuel + 1, timer, s =>
    if s.cfg.rates.egOvf.toNat ≤ timer then egLoop fuel (timer - s.cfg.rates.egOvf.toNat) (egTick s)
    else { s with gens := { s.gens with egTimer := BitVec.ofNat 32 timer } }

/-- The instructions that are register writes (format R). -/
def isRegWrite : Instr → Bool
  | .test _ | .timer1 _ | .timer2 _ | .tctl _ _ _ _ _ | .mode _ _ | .fourop _ | .newmode _
  | .rhythm _ _ _ _ _ _ _ _ | .opchar _ _ _ _ _ _ | .oplevel _ _ _ | .opad _ _ _ | .opsr _ _ _ | .opwave _ _
  | .fnlo _ _ | .konblk _ _ _ _ | .fbcon _ _ _ _ _ => true
  | .wra _ | .wra2 _ | .wrd _ | .rd _ | .texp0 | .texp1 | .tick | .peakclr | .reset => false

/-- The two register writes that perform key events (47_register_writes.md R305). -/
def isKeyWrite : Instr → Bool
  | .rhythm _ _ _ _ _ _ _ _ | .konblk _ _ _ _ => true
  | .wra _ | .wra2 _ | .wrd _ | .rd _ | .texp0 | .texp1 | .tick | .peakclr | .reset
  | .test _ | .timer1 _ | .timer2 _ | .tctl _ _ _ _ _ | .mode _ _ | .fourop _ | .newmode _
  | .opchar _ _ _ _ _ _ | .oplevel _ _ _ | .opad _ _ _ | .opsr _ _ _ | .opwave _ _
  | .fnlo _ _ | .fbcon _ _ _ _ _ => false

/-- The table of 30_encoding.md R104: offset, channel and slot. -/
def slotOfOffset : List (Nat × Nat × Slot) :=
  [(0x00, 0, .one), (0x01, 1, .one), (0x02, 2, .one), (0x03, 0, .two), (0x04, 1, .two), (0x05, 2, .two),
   (0x08, 3, .one), (0x09, 4, .one), (0x0A, 5, .one), (0x0B, 3, .two), (0x0C, 4, .two), (0x0D, 5, .two),
   (0x10, 6, .one), (0x11, 7, .one), (0x12, 8, .one), (0x13, 6, .two), (0x14, 7, .two), (0x15, 8, .two)]

/-- The address, bank included, of the operator register at a base (30_encoding.md R103, R104). -/
def opAddr (base : Nat) (o : OpRef) : BitVec 9 :=
  BitVec.ofNat 9 (256 * (o.ch.val / 9) + base + 8 * (o.ch.val % 9 / 3) + o.ch.val % 3 +
    (match o.slot with | .one => 0 | .two => 3))

/-- The address, bank included, of the channel register at a base (30_encoding.md R103). -/
def chanAddr (base : Nat) (c : Chan) : BitVec 9 := BitVec.ofNat 9 (256 * (c.val / 9) + base + c.val % 9)

/-- The reserved locations as 30_encoding.md R110 lists them. -/
def reservedByList (bank : Bool) (a : Byte) : Bool :=
  let n := a.toNat
  let within (lo hi : Nat) : Bool := lo ≤ n && n ≤ hi
  let hole := (within 0x20 0x9F || within 0xE0 0xFF) &&
    (n % 32 == 6 || n % 32 == 7 || n % 32 == 14 || n % 32 == 15 || 22 ≤ n % 32)
  let gap := within 0xA9 0xAF || within 0xB9 0xBC || n == 0xBE || n == 0xBF || within 0xC9 0xCF || within 0xD9 0xDF
  hole || gap ||
    if bank then within 0x00 0x03 || within 0x06 0x1F || n == 0xBD
    else n == 0x00 || within 0x05 0x07 || within 0x09 0x1F

end Sys2Proof.Machine
end

