-- ==== Sys2Proof/Certificates/Slice0/Obligations.lean ====
section
/-! DEFINITION. The statements for the provers. Each docstring names the rule of spec/ it formalises. -/

open Sys2Proof Sys2Proof.Machine

/-! ### Encoding (30_encoding.md) -/

/-- Decoding the encoding of an instruction gives it back, in every variant that has it, for every operand
(30_encoding.md R102 to R106). -/
def Obligations.DecodeOfEncodeIsTheInstruction : Prop :=
  ∀ (x : Variant) (i : Instr), i.wf x = true → decode x (encode i) = .ok i

/-- What the decoder reads in a variant exists in it: V1 has no bank-1 instruction (30_encoding.md R108). -/
def Obligations.DecodedInstructionsExistInTheVariant : Prop :=
  ∀ (x : Variant) (e : Encoded) (i : Instr), decode x e = .ok i → i.wf x = true

/-- The words that 30_encoding.md R113 writes out, and one for each format. -/
def Obligations.WordsOfTheSpecDecode : Prop :=
  decodeR .v1 0x02C22 = .ok (.opchar ⟨4, .two⟩ false false true false 2) ∧
  decodeR .v2 0x1B132 = .ok (.konblk 10 true 4 2) ∧
  decodeR .v2 0x1A144 = .ok (.fnlo 10 0x44) ∧
  decodeR .v1 0x1B132 = .error .noBankOne ∧
  decodeR .v1 0x02622 = .error .reservedLocation ∧
  decodeP .v1 0x02C = .wra 0x2C ∧
  decodeP .v1 0x122 = .wrd 0x22

/-- A port word by its read bit and its port number: `WRA2` is port 2 in V2 only, in V1 the high bit of the port number
is ignored, on a read the data byte is (30_encoding.md R102). -/
def Obligations.PortWordsDecodeByThePortNumber : Prop :=
  ∀ d : Byte,
    (∀ x, decodeP x (0b000#3 ++ d) = .wra d) ∧ (∀ x, decodeP x (0b001#3 ++ d) = .wrd d) ∧
    (∀ x, decodeP x (0b011#3 ++ d) = .wrd d) ∧ decodeP .v2 (0b010#3 ++ d) = .wra2 d ∧
    decodeP .v1 (0b010#3 ++ d) = .wra d ∧ ∀ x p, decodeP x (1#1 ++ p ++ d) = .rd p

/-- The fields of every register stand where 30_encoding.md R105 and R106 place them, at the addresses of R103 and R104, and
every bit not named is ignored; `0xD0 + n` is `0xC0 + n` again (R107); V1 has no bank 1. -/
def Obligations.FieldsAreWhereTheMapPlacesThem : Prop :=
  ∀ (x : Variant) (v : Byte),
    (∀ o : OpRef, chanExists x o.ch = true →
      decodeR x (opAddr 0x20 o ++ v) =
        .ok (.opchar o (v.getLsbD 7) (v.getLsbD 6) (v.getLsbD 5) (v.getLsbD 4) (v.extractLsb' 0 4)) ∧
      decodeR x (opAddr 0x40 o ++ v) = .ok (.oplevel o (v.extractLsb' 6 2) (v.extractLsb' 0 6)) ∧
      decodeR x (opAddr 0x60 o ++ v) = .ok (.opad o (v.extractLsb' 4 4) (v.extractLsb' 0 4)) ∧
      decodeR x (opAddr 0x80 o ++ v) = .ok (.opsr o (v.extractLsb' 4 4) (v.extractLsb' 0 4)) ∧
      decodeR x (opAddr 0xE0 o ++ v) = .ok (.opwave o (v.extractLsb' 0 3))) ∧
    (∀ c : Chan, chanExists x c = true →
      decodeR x (chanAddr 0xA0 c ++ v) = .ok (.fnlo c v) ∧
      decodeR x (chanAddr 0xB0 c ++ v) = .ok (.konblk c (v.getLsbD 5) (v.extractLsb' 2 3) (v.extractLsb' 0 2)) ∧
      decodeR x (chanAddr 0xC0 c ++ v) =
        .ok (.fbcon c (v.getLsbD 5) (v.getLsbD 4) (v.extractLsb' 1 3) (v.getLsbD 0)) ∧
      decodeR x (chanAddr 0xD0 c ++ v) = decodeR x (chanAddr 0xC0 c ++ v)) ∧
    decodeR x (0x001#9 ++ v) = .ok (.test (v.getLsbD 5)) ∧
    decodeR x (0x002#9 ++ v) = .ok (.timer1 v) ∧
    decodeR x (0x003#9 ++ v) = .ok (.timer2 v) ∧
    decodeR x (0x004#9 ++ v) =
      .ok (.tctl (v.getLsbD 7) (v.getLsbD 6) (v.getLsbD 5) (v.getLsbD 1) (v.getLsbD 0)) ∧
    decodeR x (0x008#9 ++ v) = .ok (.mode (v.getLsbD 7) (v.getLsbD 6)) ∧
    decodeR x (0x0BD#9 ++ v) =
      .ok (.rhythm (v.getLsbD 7) (v.getLsbD 6) (v.getLsbD 5) (v.getLsbD 4) (v.getLsbD 3) (v.getLsbD 2)
        (v.getLsbD 1) (v.getLsbD 0)) ∧
    decodeR .v2 (0x104#9 ++ v) = .ok (.fourop (v.extractLsb' 0 6)) ∧
    decodeR .v2 (0x105#9 ++ v) = .ok (.newmode (v.getLsbD 0)) ∧
    decodeR .v1 (0x104#9 ++ v) = .error .noBankOne ∧
    decodeR .v1 (0x105#9 ++ v) = .error .noBankOne

/-- The locations that decode to no register are exactly those 30_encoding.md R110 lists; V1 has no bank 1. -/
def Obligations.ReservedLocationsAreTheListedOnes : Prop :=
  ∀ (x : Variant) (bank : Bool) (a : Byte), (x = .v1 → bank = false) →
    (reservedByList bank a = true ↔ ∃ e, decodeLoc x bank a = .error e)

/-! ### Steps and commands -/

/-- A step takes the next command the host has issued, whatever its word, and runs the instruction it decodes to: a port
word, every bit of it allowed, by the format-P decoder, an event by its name; so the word or the event that encodes a
well-formed instruction runs that one. With none issued the state stays as it is. That the commands wait in a queue is the
model's choice (log entry 3). -/
def Obligations.StepRunsTheDecodedCommand : Prop :=
  (∀ (s : State) (c : Command) (rest : List Command),
    s.input = c :: rest → step s = exec (c.instr s.cfg.variant) { s with input := rest }) ∧
  (∀ (x : Variant) (w : BitVec 11) (e : HostEvent),
    decode x (.p w) = .ok ((Command.port w).instr x) ∧ decode x (.e e) = .ok ((Command.event e).instr x)) ∧
  (∀ (s : State) (i : Instr) (w : BitVec 11) (rest : List Command), i.wf s.cfg.variant = true → encode i = .p w →
    s.input = .port w :: rest → step s = exec i { s with input := rest }) ∧
  (∀ (s : State) (i : Instr) (e : HostEvent) (rest : List Command), encode i = .e e →
    s.input = .event e :: rest → step s = exec i { s with input := rest }) ∧
  ∀ s : State, s.input = [] → step s = .next s

/-- A register write reaches the machine as an address write and a data write: those two steps leave what the register
write leaves on the state with the address latched, and the second returns the `IRQ` bit. In V2 bank 1 is reached with
`NEW = 1`, or at `0x05` (30_encoding.md R101, 47_register_writes.md R285, R286). -/
def Obligations.AddressThenDataRunsTheRegisterWrite : Prop :=
  ∀ (s : State) (i : Instr) (w : BitVec 17) (rest : List Command), s.live = true → i.wf s.cfg.variant = true →
    encode i = .r w →
    (w.getLsbD 16 = true → s.glob.new = true ∨ w.extractLsb' 8 8 = 0x05) →
    s.input = i.commands ++ rest →
    ∃ t r, step s = .next t ∧ exec i { s with addr := w.extractLsb' 8 9, input := rest } = .next r ∧
      step t = .next { r with out := { r.out with result := .irq r.irq } }

/-- A data write performs the register write that the latched address and the byte decode to, or nothing at a reserved
location, leaves the latch, and returns the `IRQ` bit as it is after the write (47_register_writes.md R286). -/
def Obligations.DataWritePerformsTheDecodedRegisterWrite : Prop :=
  ∀ (s : State) (v : Byte), s.live = true →
    (∀ i, decodeR s.cfg.variant (s.addr ++ v) = .ok i →
      ∃ r, exec i s = .next r ∧ r.addr = s.addr ∧
        exec (.wrd v) s = .next { r with out := { r.out with result := .irq r.irq } }) ∧
    ∀ e, decodeR s.cfg.variant (s.addr ++ v) = .error e →
      exec (.wrd v) s = .next { s with out := { result := .irq s.irq, events := [] } }

/-- A data write at a reserved location, and in V2 one to `TEST`, changes no state and emits no event
(47_register_writes.md R292). -/
def Obligations.ReservedWritesChangeNothing : Prop :=
  ∀ (s : State) (v : Byte), s.live = true → variantDefaults s.cfg = true →
    (s.cfg.variant = .v1 → s.addr.getLsbD 8 = false) →
    reservedByList (s.addr.getLsbD 8) (s.addr.extractLsb' 0 8) = true ∨ (s.cfg.variant = .v2 ∧ s.addr = 0x001) →
    exec (.wrd v) s = .next { s with out := { result := .irq s.irq, events := [] } }

/-- An address write latches the number with bank 0; one to the bank-1 port latches bank 1 in V2 when `NEW = 1` or the
number is `0x05` (47_register_writes.md R285). V1 has no `WRA2`: that `exec` of it there is an ordinary address write, as a
write to port 2 of V1 is, is the model's choice (log entry 6). -/
def Obligations.AddressWritesLatchTheAddress : Prop :=
  ∀ (s : State) (v : Byte), s.live = true →
    exec (.wra v) s = .next { s with addr := 0#1 ++ v, out := { result := .irq s.irq, events := [] } } ∧
    exec (.wra2 v) s = .next { s with
      addr := if s.cfg.variant = .v2 ∧ (s.glob.new = true ∨ v = 0x05) then 1#1 ++ v else 0#1 ++ v
      out := { result := .irq s.irq, events := [] } }

/-- A read of the status port returns the status byte, with the start bits below it where `STATUS_SHOWS_ST` holds; a read
of another port returns 0; neither changes state (60_exceptions.md R363). -/
def Obligations.PortReadsReturnTheStatus : Prop :=
  ∀ (s : State) (p : BitVec 2), s.live = true →
    let start := BitVec.ofNat 8 (2 * s.glob.st2.toNat + s.glob.st1.toNat)
    let read := if s.cfg.statusShowsSt = true then s.status ||| start else s.status
    let q := if s.cfg.variant = .v1 then p.toNat % 2 else p.toNat
    exec (.rd p) s = .next { s with out := { result := .byte (if q = 0 then read else 0), events := [] } }

/-- Every port write returns the `IRQ` bit as it stands after the write; only a data write that reaches `TCTL` can change
it, and only from 1 to 0 (47_register_writes.md R306). -/
def Obligations.PortWritesReturnTheInterruptLine : Prop :=
  ∀ (s : State) (v : Byte) (i : Instr), s.live = true → (i = .wra v ∨ i = .wra2 v ∨ i = .wrd v) →
    ∃ t, exec i s = .next t ∧ t.out.result = .irq t.irq ∧
      (t.irq ≠ s.irq → i = .wrd v ∧ s.addr = 0x004 ∧ s.irq = true ∧ t.irq = false)

/-- Before the first `RESET` every other command is refused; `RESET` starts the instance and no command undoes that
(10_state.md R44). -/
def Obligations.NothingRunsBeforeTheFirstReset : Prop :=
  (∀ (s : State) (i : Instr), s.live = false → i ≠ .reset → exec i s = .refused .beforeFirstReset) ∧
  ∀ (s t : State) (i : Instr), exec i s = .next t → t.live = true

/-- The variant, the rates, the tables and the open parameters are constants of an instance (10_state.md R41). -/
def Obligations.ConfigurationNeverChanges : Prop :=
  ∀ (s t : State) (i : Instr), exec i s = .next t → t.cfg = s.cfg

/-! ### Global registers (47_register_writes.md section 3) -/

/-- The writes to the other global registers store their fields and change nothing else, with no event and no key event:
`TEST` stores `WSE` in V1 and nothing in V2 (47_register_writes.md R287), `TIMER1` and `TIMER2` their presets (R288, R289),
`MODE` `NTS` and in V1 `CSM` (R291), in V2 `FOUROP` the six pair bits and `NEWMODE` `NEW` (R293, R294). -/
def Obligations.GlobalWritesStoreTheirFields : Prop :=
  ∀ s : State, s.live = true → variantDefaults s.cfg = true →
    (∀ b : Bool, exec (.test b) s = .next { s with
      out := noOutput, glob := { s.glob with wse := match s.cfg.variant with | .v1 => b | .v2 => s.glob.wse } }) ∧
    (∀ v : Byte, exec (.timer1 v) s = .next { s with out := noOutput, glob := { s.glob with t1 := v } }) ∧
    (∀ v : Byte, exec (.timer2 v) s = .next { s with out := noOutput, glob := { s.glob with t2 := v } }) ∧
    (∀ csm nts : Bool, exec (.mode csm nts) s = .next { s with
      out := noOutput, glob := { s.glob with
        nts := nts, csm := match s.cfg.variant with | .v1 => csm | .v2 => s.glob.csm } }) ∧
    (s.cfg.variant = .v2 → ∀ ext : BitVec 6,
      exec (.fourop ext) s = .next { s with out := noOutput, glob := { s.glob with ext := ext } }) ∧
    (s.cfg.variant = .v2 → ∀ new : Bool,
      exec (.newmode new) s = .next { s with out := noOutput, glob := { s.glob with new := new } })

/-- `TCTL` with bit 7 clears both flags and nothing else; without it, it clears the flags whose mask bit is written 1,
stores the masks, and announces each start bit it changes, timer 2 first. The line falls, with its event, when the last
flag goes. For a consistent status byte (47_register_writes.md R290). -/
def Obligations.TimerControlClearsMasksAndStarts : Prop :=
  ∀ (s : State) (rst mt1 mt2 st2 st1 : Bool), s.live = true → statusOk s.status = true →
    let f1 := s.status.getLsbD 6 && !(rst || mt1)
    let f2 := s.status.getLsbD 5 && !(rst || mt2)
    exec (.tctl rst mt1 mt2 st2 st1) s = .next { s with
      status := bit (f1 || f2) ++ bit f1 ++ bit f2 ++ 0#5
      glob := if rst then s.glob else { s.glob with mt1 := mt1, mt2 := mt2, st2 := st2, st1 := st1 }
      out := { result := .none, events :=
        (if s.irq = true ∧ f1 = false ∧ f2 = false then [.irqChanged false] else []) ++
        (if rst = false ∧ s.glob.st2 ≠ st2 then
          [.timerReload 1 (if st2 then (256 - s.glob.t2.toNat) * 16 else 0)] else []) ++
        (if rst = false ∧ s.glob.st1 ≠ st1 then
          [.timerReload 0 (if st1 then (256 - s.glob.t1.toNat) * 4 else 0)] else []) } }

/-- The masters are the pair-low channels whose bit is set, in V2 with `NEW = 1`; the slaves are the channels three above a
master and use its frequency code (10_state.md R46 to R48). A channel is rhythm exactly for 6 to 8 while `RHY = 1`, with
`RHY = 0` those three are like any channel in no pair, and otherwise master, slave or independent (44_channel_router.md
R231). -/
def Obligations.RolesOfTheChannels : Prop :=
  ∀ (s : State) (c : Chan),
    (isMaster s c = true ↔ s.cfg.variant = .v2 ∧ s.glob.new = true ∧
      ∃ p ∈ [(0, 0), (1, 1), (2, 2), (9, 3), (10, 4), (11, 5)], c.val = p.1 ∧ s.glob.ext.getLsbD p.2 = true) ∧
    (isSlave s c = true ↔ ∃ m : Chan, isMaster s m = true ∧ c.val = m.val + 3) ∧
    (fsrc s c).val = (if isSlave s c = true then c.val - 3 else c.val) ∧
    (role s c = .rhythm ↔ s.glob.rhy = true ∧ 6 ≤ c.val ∧ c.val ≤ 8) ∧
    (role s c = .master ↔ isMaster s c = true) ∧
    (role s c = .slave ↔ isSlave s c = true)

/-- `RHYTHM` stores its eight fields and keys each of the six rhythm operators on or off through bit 1 of its mask by its
own bit and `RHY`, using the new values; every other operator and every channel field stays (47_register_writes.md R302). -/
def Obligations.RhythmWriteKeysTheSixOperators : Prop :=
  ∀ (s : State) (dam dvb rhy bd sd tom tc hh : Bool), s.live = true →
    let key := fun (on : Bool) (o : OpRef) => if rhy = true ∧ on = true then keyOn 2 (s.op o) else keyOff 2 (s.op o)
    ∃ t, exec (.rhythm dam dvb rhy bd sd tom tc hh) s = .next t ∧
      t = { s with
        glob := { s.glob with
          dam := dam, dvb := dvb, rhy := rhy, bd := bd, sd := sd, tom := tom, tc := tc, hh := hh }
        out := noOutput, chans := t.chans } ∧
      (∀ c, (t.chan c).own = (s.chan c).own) ∧
      t.op ⟨6, .one⟩ = key bd ⟨6, .one⟩ ∧ t.op ⟨6, .two⟩ = key bd ⟨6, .two⟩ ∧
      t.op ⟨7, .one⟩ = key hh ⟨7, .one⟩ ∧ t.op ⟨7, .two⟩ = key sd ⟨7, .two⟩ ∧
      t.op ⟨8, .one⟩ = key tom ⟨8, .one⟩ ∧ t.op ⟨8, .two⟩ = key tc ⟨8, .two⟩ ∧
      ∀ o, o.ch ≠ 6 → o.ch ≠ 7 → o.ch ≠ 8 → t.op o = s.op o

/-! ### Operator and channel registers (47_register_writes.md sections 4 and 5) -/

/-- `OPCHAR`, `OPLEVEL`, `OPAD` and `OPSR` store their fields in their operator and change nothing else; the multiplier
acts on the increment at once, key scaling on the rates (47_register_writes.md R296 to R299). -/
def Obligations.OperatorWritesStoreTheirFields : Prop :=
  ∀ (s : State) (o : OpRef), s.live = true → s.hasChan o.ch = true →
    (∀ (am vib egt ksr' : Bool) (mult : BitVec 4), ∃ t, exec (.opchar o am vib egt ksr' mult) s = .next t ∧
      OnlyOp o s t ∧ t.out = noOutput ∧
      t.op o = { s.op o with am := am, vib := vib, egt := egt, ksr := ksr', mult := mult } ∧
      (incr t o).toNat = fc s o.ch * mul2 s.cfg mult % 2 ^ 32 ∧
      ksr t o = if ksr' then (kcode s o.ch).toNat else (kcode s o.ch).toNat / 4) ∧
    (∀ (ksl : BitVec 2) (tl : BitVec 6), ∃ t, exec (.oplevel o ksl tl) s = .next t ∧
      OnlyOp o s t ∧ t.out = noOutput ∧ t.op o = { s.op o with ksl := ksl, tl := tl }) ∧
    (∀ ar dr : BitVec 4, ∃ t, exec (.opad o ar dr) s = .next t ∧
      OnlyOp o s t ∧ t.out = noOutput ∧ t.op o = { s.op o with ar := ar, dr := dr }) ∧
    ∀ sl rr : BitVec 4, ∃ t, exec (.opsr o sl rr) s = .next t ∧
      OnlyOp o s t ∧ t.out = noOutput ∧ t.op o = { s.op o with sl := sl, rr := rr }

/-- `OPWAVE` stores two bits in V1, and only while `WSE = 1`; in V2 it stores three, of which `NEW = 0` keeps two in effect;
nothing else changes (47_register_writes.md R304). -/
def Obligations.WaveformWritesFollowTheVariant : Prop :=
  ∀ (s : State) (o : OpRef) (ws : BitVec 3), s.live = true → variantDefaults s.cfg = true →
    s.hasChan o.ch = true →
    ∃ t, exec (.opwave o ws) s = .next t ∧ OnlyOp o s t ∧ t.out = noOutput ∧
      t.op o = match s.cfg.variant with
        | .v1 => if s.glob.wse then
            { s.op o with wsReg := BitVec.ofNat 3 (ws.toNat % 4), wave := BitVec.ofNat 3 (ws.toNat % 4) }
          else s.op o
        | .v2 => { s.op o with
            wsReg := ws, wave := if s.glob.new then ws else BitVec.ofNat 3 (ws.toNat % 4) }

/-- `FNLO` replaces the low eight bits of the f-number; `FBCON` stores feedback and connection, in V2 also the two enable
bits and the output enables in effect, which `NEW = 0` forces on; nothing else changes (47_register_writes.md R300,
R303). -/
def Obligations.ChannelWritesStoreTheirFields : Prop :=
  ∀ (s : State) (c : Chan), s.live = true → s.hasChan c = true →
    (∀ lo : Byte, ∃ t, exec (.fnlo c lo) s = .next t ∧ OnlyChanFields c s t ∧ t.out = noOutput ∧
      t.chan c = { s.chan c with fnum := ((s.chan c).fnum &&& 0x300) ||| lo.setWidth 10 }) ∧
    ∀ (chb cha : Bool) (fb : BitVec 3) (con : Bool),
      ∃ t, exec (.fbcon c chb cha fb con) s = .next t ∧ OnlyChanFields c s t ∧ t.out = noOutput ∧
        t.chan c = match s.cfg.variant with
          | .v1 => { s.chan c with fb := fb, con := con }
          | .v2 => { s.chan c with
              fb := fb, con := con, cha := cha, chb := chb,
              panL := cha || !s.glob.new, panR := chb || !s.glob.new }

/-- `KONBLK` replaces the high bits of the f-number and the block, then keys on or off, through bit 0 of their masks, the
two operators of an independent channel, the four of a master and none of a slave; every other operator and every other
channel field stays (47_register_writes.md R301). -/
def Obligations.KonblkWriteSetsPitchAndKeys : Prop :=
  ∀ (s : State) (c : Chan) (kon : Bool) (block : BitVec 3) (hi : BitVec 2), s.live = true → s.hasChan c = true →
    ∃ t, exec (.konblk c kon block hi) s = .next t ∧ SameExceptChans s t ∧ t.out = noOutput ∧
      (∀ d, d ≠ c → (t.chan d).own = (s.chan d).own) ∧
      (t.chan c).own = { (s.chan c).own with
        fnum := ((s.chan c).fnum &&& 0x0FF) ||| (hi.setWidth 10 <<< 8), block := block } ∧
      ∀ o, t.op o =
        if isSlave s c = false ∧ (o.ch = c ∨ (isMaster s c = true ∧ o.ch.val = c.val + 3)) then
          (if kon then keyOn 1 (s.op o) else keyOff 1 (s.op o))
        else s.op o

/-- The same key write a second time changes nothing (47_register_writes.md R301, R302). -/
def Obligations.RepeatedKeyWritesChangeNothing : Prop :=
  ∀ (s t : State) (i : Instr), isKeyWrite i = true → exec i s = .next t → exec i t = .next t

/-- A register write of a variant that lacks the register changes nothing: the model's choice for forms no port access
of that variant can make (log entry 6). -/
def Obligations.AbsentRegistersChangeNothing : Prop :=
  ∀ (s : State) (i : Instr), s.live = true → isRegWrite i = true → i.wf s.cfg.variant = false →
    exec i s = .next { s with out := noOutput }

/-- What a register write never does: the accumulators change only by key-on, to 0; attenuation, feedback history,
oscillators, noise, envelope counters and outputs stay; only `TCTL` changes the status, only by clearing; only `KONBLK` and
`RHYTHM` perform key events (47_register_writes.md R305). -/
def Obligations.RegisterWritesLeaveTheDynamicsAlone : Prop :=
  ∀ (s : State) (i : Instr), s.live = true → isRegWrite i = true →
    ∃ t, exec i s = .next t ∧ t.gens = s.gens ∧ t.mixL = s.mixL ∧ t.mixR = s.mixR ∧
      (∀ c, (t.chan c).chanout = (s.chan c).chanout ∧ (t.chan c).peak = (s.chan c).peak) ∧
      (∀ o, (t.op o).vol = (s.op o).vol ∧ (t.op o).fb0 = (s.op o).fb0 ∧ (t.op o).fb1 = (s.op o).fb1 ∧
        ((t.op o).cnt = (s.op o).cnt ∨ ((t.op o).cnt = 0 ∧ (s.op o).key = 0 ∧ (t.op o).key ≠ 0))) ∧
      (isKeyWrite i = false → ∀ o, (t.op o).key = (s.op o).key ∧ (t.op o).phase = (s.op o).phase ∧
        (t.op o).cnt = (s.op o).cnt) ∧
      (t.status = s.status ∨
        ((∃ rst mt1 mt2 st2 st1, i = .tctl rst mt1 mt2 st2 st1) ∧ t.status &&& s.status = t.status))

/-! ### Key events and timers -/

/-- Key-on of an operator no source holds restarts it in attack with its accumulator at 0, otherwise it only adds its bit
(42_envelope_generator.md R185); key-off removes its bit, and when that was the last one the operator goes to release,
unless it is in release or off (R186). -/
def Obligations.KeyEventsFollowTheKeyMask : Prop :=
  ∀ (b : BitVec 3) (p : Op),
    (p.key = 0 → keyOn b p = { p with cnt := 0, phase := .att, key := b }) ∧
    (p.key ≠ 0 → keyOn b p = { p with key := p.key ||| b }) ∧
    (p.key = 0 → keyOff b p = p) ∧
    (p.key ≠ 0 → p.key &&& ~~~b ≠ 0 → keyOff b p = { p with key := p.key &&& ~~~b }) ∧
    (p.key ≠ 0 → p.key &&& ~~~b = 0 →
      keyOff b p = { p with key := 0, phase := if p.phase = .off then .off else .rel })

/-- `TEXP 0` sets the timer-1 flag and the line unless the flag is masked, requests a reload, and in V1 with `CSM = 1` keys
every operator on and off: one that no source held restarts and is released at once, the others stay. `TEXP 1` sets the
timer-2 flag and the line unless the flag is masked, and requests a reload. For a consistent status byte and a CSM key bit
at rest (60_exceptions.md R369). -/
def Obligations.TimerExpiriesSetFlagsAndReload : Prop :=
  ∀ s : State, s.live = true → variantDefaults s.cfg = true → statusOk s.status = true →
    (∀ o, (s.op o).key.getLsbD 2 = false) →
    (∃ t, exec .texp0 s = .next t ∧
      t = { s with
        status := if s.glob.mt1 then s.status else s.status ||| 0xC0
        out := { result := .irq (s.irq || !s.glob.mt1), events :=
          (if s.irq = false ∧ s.glob.mt1 = false then [.irqChanged true] else []) ++
          [.timerReload 0 ((256 - s.glob.t1.toNat) * 4)] }
        chans := t.chans } ∧
      (∀ c, (t.chan c).own = (s.chan c).own) ∧
      ∀ o, t.op o =
        if s.cfg.variant = .v1 ∧ s.glob.csm = true ∧ s.hasChan o.ch = true ∧ (s.op o).key = 0 then
          { s.op o with cnt := 0, phase := .rel }
        else s.op o) ∧
    exec .texp1 s = .next { s with
      status := if s.glob.mt2 then s.status else s.status ||| 0xA0
      out := { result := .irq (s.irq || !s.glob.mt2), events :=
        (if s.irq = false ∧ s.glob.mt2 = false then [.irqChanged true] else []) ++
        [.timerReload 1 ((256 - s.glob.t2.toNat) * 16)] } }

/-- Only an address write and `RESET` change the address latch (10_state.md R33); only `TEXP`, `TCTL` and `RESET` change the
status byte (10_state.md R40); a data write counts as the register write it performs. -/
def Obligations.OnlyTheseCommandsChangeLatchAndStatus : Prop :=
  ∀ (s t : State) (i : Instr), exec i s = .next t →
    (t.addr = s.addr ∨ i = .reset ∨ ∃ v, i = .wra v ∨ i = .wra2 v) ∧
    (t.status = s.status ∨ i = .reset ∨ i = .texp0 ∨ i = .texp1 ∨
      (∃ rst mt1 mt2 st2 st1, i = .tctl rst mt1 mt2 st2 st1) ∨ ∃ v, i = .wrd v ∧ s.addr = 0x004)

/-- Which commands can bring an operator into an envelope phase it was not in, and what they leave: attack comes of a key
write alone, release of a key write or a timer-1 expiry, decay and sustain of a tick, off of a tick or `RESET`; and the key
mask changes by those alone (10_state.md R29, 42_envelope_generator.md R197). -/
def Obligations.OnlyTheseCommandsChangeTheEnvelopePhase : Prop :=
  ∀ (s t : State) (i : Instr) (o : OpRef), exec i s = .next t →
    ((t.op o).phase = .att → (s.op o).phase ≠ .att →
      (isKeyWrite i = true ∨ ∃ v, i = .wrd v) ∧ (s.op o).key = 0 ∧ (t.op o).key ≠ 0 ∧ (t.op o).cnt = 0) ∧
    ((t.op o).phase = .rel → (s.op o).phase ≠ .rel →
      (isKeyWrite i = true ∨ i = .texp0 ∨ ∃ v, i = .wrd v) ∧ (t.op o).key = 0) ∧
    ((t.op o).phase = .dec ∨ (t.op o).phase = .sus → (s.op o).phase ≠ (t.op o).phase → i = .tick) ∧
    ((t.op o).phase = .off → (s.op o).phase ≠ .off → i = .tick ∨ i = .reset) ∧
    ((t.op o).key = (s.op o).key ∨ isKeyWrite i = true ∨ i = .texp0 ∨ i = .reset ∨ ∃ v, i = .wrd v)

/-! ### The tick (48_sample_tick.md) -/

/-- `TICK` completes, returns nothing and emits nothing; it changes the free-running counters, the outputs, and of the
operators only accumulator, envelope and feedback history: no programmed field, key mask, latch or timer
(48_sample_tick.md R341). -/
def Obligations.TickChangesOnlyTheDynamics : Prop :=
  ∀ s : State, s.live = true → ∃ t, exec .tick s = .next t ∧
    t = { s with out := noOutput, gens := t.gens, mixL := t.mixL, mixR := t.mixR, chans := t.chans } ∧
    (∀ c, (t.chan c).programmed = (s.chan c).programmed) ∧
    (∀ o, (t.op o).programmed = (s.op o).programmed) ∧
    ∀ c, s.hasChan c = false → t.chan c = s.chan c

/-- A tick advances the tremolo counter by its increment with a reduction at `210 << 24`, the vibrato counter modulo `2^32`,
and steps the noise generator by the integer part of its accumulator (46_lfo_noise.md R271, R274, R279). -/
def Obligations.TickAdvancesTheOscillators : Prop :=
  ∀ s : State, s.live = true → boundedConfig s.cfg = true → s.gens.lfoAmCnt.toNat < 210 * 2 ^ 24 →
    ∃ t, exec .tick s = .next t ∧
      t.gens.lfoAmCnt.toNat =
        (if 210 * 2 ^ 24 ≤ s.gens.lfoAmCnt.toNat + s.cfg.rates.lfoAmInc.toNat then
          s.gens.lfoAmCnt.toNat + s.cfg.rates.lfoAmInc.toNat - 210 * 2 ^ 24
        else s.gens.lfoAmCnt.toNat + s.cfg.rates.lfoAmInc.toNat) ∧
      t.gens.lfoPmCnt.toNat = (s.gens.lfoPmCnt.toNat + s.cfg.rates.lfoPmInc.toNat) % 2 ^ 32 ∧
      t.gens.noiseP.toNat = (s.gens.noiseP.toNat + s.cfg.rates.noiseF.toNat) % 2 ^ 16 ∧
      t.gens.noiseRng =
        Nat.repeat noiseStep ((s.gens.noiseP.toNat + s.cfg.rates.noiseF.toNat) / 2 ^ 16) s.gens.noiseRng

/-- One noise step: the exclusive-or when bit 0 is set, then the shift right; a register that is not 0 never becomes 0
(46_lfo_noise.md R278, 10_state.md R35). -/
def Obligations.NoiseStepNeverReachesZero : Prop :=
  ∀ r : BitVec 23,
    (noiseStep r).toNat = (if r.toNat % 2 = 1 then r.toNat ^^^ 0x800302 else r.toNat) / 2 ∧
    (r ≠ 0 → noiseStep r ≠ 0)

/-- The envelope steps of a tick are the loop that 48_sample_tick.md R345 writes, from the accumulated time, with any number
of rounds allowed that is not too few. -/
def Obligations.EnvelopeStepsAreTheLoopOfTheRule : Prop :=
  ∀ (s : State) (fuel : Nat), 0 < s.cfg.rates.egOvf.toNat →
    (s.gens.egTimer.toNat + s.cfg.rates.egAdd.toNat) / s.cfg.rates.egOvf.toNat ≤ fuel →
    egAdvance s = egLoop fuel (s.gens.egTimer.toNat + s.cfg.rates.egAdd.toNat) s

/-- Natively every envelope is stepped once in a tick, with the envelope counter already advanced, whatever the operator's
phase or role (42_envelope_generator.md R181, 48_sample_tick.md R345). -/
def Obligations.NativeTickStepsEveryEnvelopeOnce : Prop :=
  ∀ s : State, s.live = true → s.cfg.rates = nativeRates → s.gens.egTimer.toNat < 65536 →
    ∃ t, exec .tick s = .next t ∧ t.gens.egCnt = s.gens.egCnt + 1 ∧ t.gens.egTimer = s.gens.egTimer ∧
      ∀ o, s.hasChan o.ch = true →
        (t.op o).vol = (egStep { s with gens := { s.gens with egCnt := s.gens.egCnt + 1 } } o).vol ∧
        (t.op o).phase = (egStep { s with gens := { s.gens with egCnt := s.gens.egCnt + 1 } } o).phase

/-- A tick adds to every accumulator the increment of its frequency code and multiplier; with vibrato, of the code moved by
the table's offset modulo `2^13`, at the vibrato step of this tick (41_phase_generator.md R162). -/
def Obligations.TickAddsThePhaseIncrement : Prop :=
  ∀ (s : State) (o : OpRef), s.live = true → s.hasChan o.ch = true →
    let bf := (blockFnum s o.ch).toNat
    let j := (s.gens.lfoPmCnt.toNat + s.cfg.rates.lfoPmInc.toNat) % 2 ^ 32 / 2 ^ 24 % 8
    let off := lfoPmTab s.cfg (bf / 128 % 8) s.glob.dvb j
    let code := if (s.op o).vib then (((bf : Int) + off) % 8192).toNat else bf
    ∃ t, exec .tick s = .next t ∧
      (t.op o).cnt.toNat = ((s.op o).cnt.toNat +
        fnTab s.cfg (code % 1024) / 2 ^ (7 - code / 1024) * mul2 s.cfg (s.op o).mult) % 2 ^ 32

/-- Neither the envelope steps nor the phase step reads what the other writes, so their order cannot be observed
(48_sample_tick.md R346). -/
def Obligations.EnvelopeAndPhaseStepsCommute : Prop :=
  ∀ s : State, phaseAdvance (egAdvance s) = egAdvance (phaseAdvance s)

/-! ### Envelope (42_envelope_generator.md) -/

/-- One attack step: on a due step the attenuation falls by `(vol + 1) * inc / 8`, rounded up, and at 0 or below the
operator enters decay; with `inc > 0` it strictly falls (42_envelope_generator.md R190). -/
def Obligations.AttackStepFollowsTheCurve : Prop :=
  ∀ (s : State) (o : OpRef), (s.op o).phase = .att →
    let sh := (egPar s o .attack).1
    let inc := egIncOf s sh (egPar s o .attack).2
    let v : Int := (s.op o).vol.toNat - ((((s.op o).vol.toNat + 1) * inc + 7) / 8 : Nat)
    (s.gens.egCnt.toNat % 2 ^ sh ≠ 0 → egStep s o = s.op o) ∧
    (s.gens.egCnt.toNat % 2 ^ sh = 0 → v ≤ 0 → egStep s o = { s.op o with vol := 0, phase := .dec }) ∧
    (s.gens.egCnt.toNat % 2 ^ sh = 0 → 0 < v →
      egStep s o = { s.op o with vol := (egStep s o).vol } ∧ ((egStep s o).vol.toNat : Int) = v ∧
        (0 < inc → (egStep s o).vol.toNat < (s.op o).vol.toNat))

/-- One decay, sustain or release step, on a safe operator and a bounded configuration: on a due step the increment is
added; decay compares with the sustain level after the addition, percussive sustain stops at 511, release goes off at 511;
non-percussive sustain and off hold (42_envelope_generator.md R192 to R196). -/
def Obligations.FallingStepsAreLinear : Prop :=
  ∀ (s : State) (o : OpRef), boundedConfig s.cfg = true → OpSafe (s.op o) →
    let inc := fun which => egIncOf s (egPar s o which).1 (egPar s o which).2
    let due := fun which => s.gens.egCnt.toNat % 2 ^ (egPar s o which).1 = 0
    let vol := (s.op o).vol.toNat
    let p := egStep s o
    p = { s.op o with vol := p.vol, phase := p.phase } ∧
    ((s.op o).phase = .dec → due .decay → p.vol.toNat = vol + inc .decay ∧
      p.phase = if slEff s.cfg (s.op o).sl ≤ vol + inc .decay then .sus else .dec) ∧
    ((s.op o).phase = .sus → (s.op o).egt = false → due .release →
      p.vol.toNat = min 511 (vol + inc .release) ∧ p.phase = .sus) ∧
    ((s.op o).phase = .rel → due .release → p.vol.toNat = min 511 (vol + inc .release) ∧
      p.phase = if 511 ≤ vol + inc .release then .off else .rel) ∧
    ((s.op o).phase = .dec → ¬ due .decay → p = s.op o) ∧
    ((s.op o).phase = .sus → (s.op o).egt = false → ¬ due .release → p = s.op o) ∧
    ((s.op o).phase = .rel → ¬ due .release → p = s.op o) ∧
    ((s.op o).phase = .sus → (s.op o).egt = true → p = s.op o) ∧
    ((s.op o).phase = .off → p = s.op o)

/-- The transitions by one envelope step, complete: attack to decay at attenuation 0, decay to sustain at or past the
sustain level, release to off at 511; sustain and off are not left (42_envelope_generator.md R197). From step to step the
attenuation does not fall in decay, sustain and release and does not rise in attack (R198). -/
def Obligations.EnvelopeStepsAreMonotone : Prop :=
  ∀ (s : State) (o : OpRef), SafeState s →
    let p := (egTick s).op o
    match (s.op o).phase with
    | .att => (p.phase = .att ∨ (p.phase = .dec ∧ p.vol = 0)) ∧ p.vol.toNat ≤ (s.op o).vol.toNat
    | .dec => (p.phase = .dec ∨ (p.phase = .sus ∧ slEff s.cfg (s.op o).sl ≤ p.vol.toNat)) ∧
        (s.op o).vol.toNat ≤ p.vol.toNat
    | .sus => p.phase = .sus ∧ (s.op o).vol.toNat ≤ p.vol.toNat
    | .rel => (p.phase = .rel ∨ (p.phase = .off ∧ p.vol = 511)) ∧ (s.op o).vol.toNat ≤ p.vol.toNat
    | .off => p = s.op o

/-- Instant attack: at a rate of `AR_INSTANT` or more an operator in attack is at attenuation 0 and in decay after one tick,
from any attenuation; in V2 `AR = 15` always is (42_envelope_generator.md R191). -/
def Obligations.InstantAttackTakesOneTick : Prop :=
  ∀ (x : Variant) (s : State) (o : OpRef), s.live = true → s.cfg = stdConfig x → s.gens.egTimer = 0 →
    s.hasChan o.ch = true → (s.op o).phase = .att →
    (arInstant x ≤ rate (s.op o).ar + ksr s o ∨ (x = .v2 ∧ (s.op o).ar = 15)) →
    ∃ t, exec .tick s = .next t ∧ (t.op o).vol = 0 ∧ (t.op o).phase = .dec

/-- The derived values are computed from the fields: the frequency code (10_state.md R49), the key code with `NTS` (R51),
the key scaling (R52), the fixed attenuation (R54), the rates (R55), the envelope shift and row with the instant attack
(R56), the tremolo value with `DAM` (46_lfo_noise.md R273) and the combined attenuation (43_operator_output.md R210). On a
bounded configuration a scaled rate indexes the tables of 96 entries, and the combined attenuation is at most 1013
(10_state.md R42). -/
def Obligations.DerivedValuesStayInRange : Prop :=
  ∀ (s : State) (o : OpRef),
    let src := s.chan (fsrc s o.ch)
    let bf := (blockFnum s o.ch).toNat
    let k := (kcode s o.ch).toNat
    let r := scaledRate s o
    bf = 1024 * src.block.toNat + src.fnum.toNat ∧
    k = 2 * (bf / 1024) + (if s.glob.nts then bf / 256 % 2 else bf / 512 % 2) ∧
    ksr s o = (if (s.op o).ksr then k else k / 4) ∧
    tll s o = 4 * (s.op o).tl.toNat + kslTab s.cfg (bf / 64) / 2 ^ kslShift s.cfg (s.op o).ksl ∧
    (∀ x : BitVec 4, rate x = if x.toNat = 0 then 0 else 16 + 4 * x.toNat) ∧
    r .attack = rate (s.op o).ar + ksr s o ∧ r .decay = rate (s.op o).dr + ksr s o ∧
    r .release = rate (s.op o).rr + ksr s o ∧
    egPar s o .attack =
      (if r .attack < (match s.cfg.variant with | .v1 => 78 | .v2 => 76) then
        (rateShift s.cfg (r .attack), rateSelect s.cfg (r .attack)) else (0, 13)) ∧
    egPar s o .decay = (rateShift s.cfg (r .decay), rateSelect s.cfg (r .decay)) ∧
    egPar s o .release = (rateShift s.cfg (r .release), rateSelect s.cfg (r .release)) ∧
    lfoAm s = (let v := lfoAmTab s.cfg (s.gens.lfoAmCnt.toNat / 2 ^ 24); if s.glob.dam then v else v / 4) ∧
    env s o = tll s o + (s.op o).vol.toNat + (if (s.op o).am then lfoAm s else 0) ∧
    (boundedConfig s.cfg = true → (∀ which, r which ≤ 91) ∧ tll s o ≤ 476 ∧ lfoAm s ≤ 26 ∧ env s o ≤ 1013)

/-! ### Operator output (43_operator_output.md) -/

/-- The exponential converter: 0 from `TL_LEN` on, otherwise the table entry shifted by the halvings, negated when bit 0 is
set; its result lies in `-4084..4084` and bit 0 mirrors it exactly (43_operator_output.md R212). -/
def Obligations.ExponentialConverterIsSignedAndBounded : Prop :=
  ∀ (cfg : Config) (p : Nat), boundedConfig cfg = true →
    (tlLen cfg.variant ≤ p → expOut cfg p = 0) ∧
    (p < tlLen cfg.variant →
      (expOut cfg p).natAbs = expTab cfg (p / 2 % 256) / 2 ^ (p / 512) ∧ (p % 2 = 0 → 0 ≤ expOut cfg p)) ∧
    (expOut cfg p).natAbs ≤ 4084 ∧
    expOut cfg (2 * (p / 2) + 1) = - expOut cfg (2 * (p / 2))

/-- The quiet threshold cannot be observed: at or above it every waveform at every index gives 0, and an operator without
feedback outputs 0 whatever its modulation (43_operator_output.md R214). -/
def Obligations.QuietOperatorsOutputZero : Prop :=
  (∀ (cfg : Config) (p : Op) (x : Int) (e : Nat), envQuiet cfg.variant ≤ e → opOut cfg p x e = 0) ∧
  ∀ (s : State) (o : OpRef) (pm : Int), envQuiet s.cfg.variant ≤ env s o → slotN s o pm = 0

/-- The feedback modulation is the sum of the history divided by `2^(9 - FB)`, rounded toward minus infinity, and 0 for
`FB = 0` (43_operator_output.md R215, R216). -/
def Obligations.FeedbackRoundsTowardMinusInfinity : Prop :=
  ∀ (s : State) (c : Chan) (sum : Int),
    ((s.chan c).fb = 0 → fbMod s c sum = 0) ∧
    ((s.chan c).fb ≠ 0 → fbMod s c sum = Int.fdiv sum (2 ^ (9 - (s.chan c).fb.toNat)))

/-- A tick shifts the feedback history of every Slot 1 in use and appends its output, 0 when it is quiet; the cells of a
slave's Slot 1 and of channels 7 and 8 in rhythm mode hold (43_operator_output.md R215, R217). -/
def Obligations.TickShiftsTheFeedbackHistory : Prop :=
  ∀ (s : State) (c : Chan), s.live = true → boundedConfig s.cfg = true → s.hasChan c = true →
    let o : OpRef := ⟨c, .one⟩
    let e := env (lfoAdvance s) o
    let pm := if (s.chan c).fb = 0 then 0
      else ((s.op o).fb0.toInt + (s.op o).fb1.toInt) * 2 ^ ((s.chan c).fb.toNat + 7) / 65536
    ∃ t, exec .tick s = .next t ∧
      if role s c = .twoOp ∨ role s c = .master ∨ (role s c = .rhythm ∧ c = 6) then
        (t.op o).fb0 = (s.op o).fb1 ∧
        (t.op o).fb1.toInt =
          if e < envQuiet s.cfg.variant then opOut s.cfg (s.op o) ((s.op o).cnt.toNat / 65536 + pm) e else 0
      else (t.op o).fb0 = (s.op o).fb0 ∧ (t.op o).fb1 = (s.op o).fb1

/-! ### Router, rhythm and mix (44_channel_router.md, 45_rhythm.md) -/

/-- The order in which step 3 visits the channels cannot be observed (48_sample_tick.md R344). -/
def Obligations.ChannelOrderCannotBeObserved : Prop :=
  ∀ (s : State) (l : List Chan), l.Perm s.chanList → l.foldl chanStep s = channelsStep s

/-- The bus of a two-operator channel after a tick: in series Slot 2 modulated by Slot 1, in parallel both; Slot 1 hands on
the output of the tick before where `SLOT1_DELAYED` holds (44_channel_router.md R232, 43_operator_output.md R217). -/
def Obligations.TwoOperatorChannelOutput : Prop :=
  ∀ (s : State) (c : Chan), s.live = true → s.hasChan c = true → role s c = .twoOp →
    ∃ t, exec .tick s = .next t ∧
      let s1 := if s.cfg.slot1Delayed then (s.op ⟨c, .one⟩).fb1.toInt else (t.op ⟨c, .one⟩).fb1.toInt
      (t.chan c).chanout = BitVec.ofInt 32
        (if (s.chan c).con then s1 + slotN (lfoAdvance s) ⟨c, .two⟩ 0 else slotN (lfoAdvance s) ⟨c, .two⟩ s1)

/-- The buses of a four-operator voice after a tick, by the two connection bits, operator 1 being this tick's output of
Slot 1 (44_channel_router.md R234 to R238). That it is so also with `SLOT1_DELAYED` set in V2, where 43_operator_output.md
R217 would take the output before, is the model's choice (log entry 11). -/
def Obligations.FourOperatorVoiceOutput : Prop :=
  ∀ (s : State) (m n : Chan), s.live = true → role s m = .master → n.val = m.val + 3 →
    ∃ t, exec .tick s = .next t ∧
      let out := fun (c : Chan) (sl : Slot) (pm : Int) => slotN (lfoAdvance s) ⟨c, sl⟩ pm
      let s1 := (t.op ⟨m, .one⟩).fb1.toInt
      match (s.chan m).con, (s.chan n).con with
      | false, false => (t.chan m).chanout = 0 ∧
          (t.chan n).chanout = BitVec.ofInt 32 (out n .two (out n .one (out m .two s1)))
      | false, true => (t.chan m).chanout = BitVec.ofInt 32 (out m .two s1) ∧
          (t.chan n).chanout = BitVec.ofInt 32 (out n .two (out n .one 0))
      | true, false => (t.chan m).chanout = BitVec.ofInt 32 s1 ∧
          (t.chan n).chanout = BitVec.ofInt 32 (out n .two (out n .one (out m .two 0)))
      | true, true => (t.chan m).chanout = BitVec.ofInt 32 s1 ∧
          (t.chan n).chanout = BitVec.ofInt 32 (out n .one (out m .two 0) + out n .two 0)

/-- The buses of the rhythm channels after a tick: five doubled instruments, three of them at phases made of the
accumulators of channel 7 Slot 1 and channel 8 Slot 2 and the noise bit (45_rhythm.md R251 to R257). -/
def Obligations.RhythmInstrumentsOutput : Prop :=
  ∀ s : State, s.live = true → s.glob.rhy = true →
    let c1 := (s.op ⟨7, .one⟩).cnt.toNat / 65536
    let c2 := (s.op ⟨8, .two⟩).cnt.toNat / 65536
    let n := s.gens.noiseRng.toNat % 2 = 1
    let res := c1.testBit 2 ≠ c1.testBit 7 ∨ c1.testBit 3 = true ∨ c2.testBit 3 ≠ c2.testBit 5
    let at' := fun (c : Chan) (sl : Slot) (x : Int) =>
      let e := env (lfoAdvance s) ⟨c, sl⟩
      if e < envQuiet s.cfg.variant then opOut s.cfg (s.op ⟨c, sl⟩) x e else 0
    ∃ t, exec .tick s = .next t ∧
      (t.chan 6).chanout = BitVec.ofInt 32 (2 * at' 6 .two ((s.op ⟨6, .two⟩).cnt.toNat / 65536 +
        (if (s.chan 6).con then 0 else (s.op ⟨6, .one⟩).fb1.toInt))) ∧
      (t.chan 7).chanout = BitVec.ofInt 32 (
        2 * at' 7 .one (if res then (if n then 0x2D0 else 0x234) else (if n then 0x034 else 0x0D0)) +
        2 * at' 7 .two (if n then (if c1.testBit 8 then 0x300 else 0x000)
          else (if c1.testBit 8 then 0x200 else 0x100))) ∧
      (t.chan 8).chanout = BitVec.ofInt 32 (
        2 * at' 8 .one ((s.op ⟨8, .one⟩).cnt.toNat / 65536) + 2 * at' 8 .two (if res then 0x300 else 0x100))

/-- The mixed samples after a tick are the exact sums of the buses: in V1 of all nine on both outputs, in V2 of those
enabled on each; each voice apart is routed by the same enables (44_channel_router.md R241). -/
def Obligations.MixIsTheExactSumOfTheBuses : Prop :=
  ∀ s : State, s.live = true → SafeState s →
    ∃ t, exec .tick s = .next t ∧
      t.mixL.toInt = (allChans.map fun c =>
        if (s.cfg.variant = .v1 ∧ c.val < 9) ∨ (s.cfg.variant = .v2 ∧ (s.chan c).panL = true) then
          (t.chan c).chanout.toInt else 0).sum ∧
      t.mixR.toInt = (allChans.map fun c =>
        if (s.cfg.variant = .v1 ∧ c.val < 9) ∨ (s.cfg.variant = .v2 ∧ (s.chan c).panR = true) then
          (t.chan c).chanout.toInt else 0).sum ∧
      ∀ c, voiceOut t c =
        (if s.cfg.variant = .v1 ∨ (s.chan c).panL = true then (t.chan c).chanout else 0,
         if s.cfg.variant = .v1 ∨ (s.chan c).panR = true then (t.chan c).chanout else 0)

/-- The peak of a channel after a tick is the larger of what it was and the magnitude of the channel's bus
(48_sample_tick.md R348); `PEAKCLR` clears every peak and changes nothing else (R349). -/
def Obligations.PeaksMeterTheBusesUntilCleared : Prop :=
  ∀ s : State, s.live = true →
    (∃ t, exec .tick s = .next t ∧ ∀ c, s.hasChan c = true →
      (t.chan c).peak.toNat = max (s.chan c).peak.toNat (t.chan c).chanout.toInt.natAbs) ∧
    ∃ t, exec .peakclr s = .next t ∧ SameExceptChans s t ∧ t.out = noOutput ∧
      ∀ c, t.chan c = if s.hasChan c = true then { s.chan c with peak := 0 } else s.chan c

/-- Peaks and timers are no part of the sound: a tick leaves the same state but for the peaks whatever the peaks were
(48_sample_tick.md R340, R350), and the same state but for the timers' own whatever that was (60_exceptions.md R372). -/
def Obligations.PeaksAndTimersDoNotAffectTheSound : Prop :=
  ∀ s : State, s.live = true → ∃ t, exec .tick s = .next t ∧
    (∃ u, exec .tick s.withoutPeaks = .next u ∧ u.withoutPeaks = t.withoutPeaks) ∧
    exec .tick s.withoutTimers = .next t.withoutTimers ∧ t.status = s.status ∧ t.glob = s.glob

/-! ### Reset, silence and the invariants -/

/-- `RESET` puts every element of state at its reset value, announces the fall of the line and the stop of the timers, and
on the first `RESET` announces nothing (70_reset_and_hazards.md R400). -/
def Obligations.ResetLeavesTheResetValues : Prop :=
  ∀ s : State, ∃ t, exec .reset s = .next t ∧
    t = { State.resetOf s.cfg with input := t.input, out := t.out } ∧
    t.out = { result := .none, events := if s.live = true then
      (if s.status.getLsbD 7 = true then [.irqChanged false] else []) ++
      (if s.glob.st2 = true then [.timerReload 1 0] else []) ++
      (if s.glob.st1 = true then [.timerReload 0 0] else []) else [] } ∧
    t.addr = 0 ∧ t.status = 0 ∧ t.mixL = 0 ∧ t.mixR = 0 ∧
    t.gens = { lfoAmCnt := 0, lfoPmCnt := 0, noiseRng := 1, noiseP := 0, egCnt := 0, egTimer := 0 } ∧
    t.glob = { wse := false, t1 := 0, t2 := 0, st1 := false, st2 := false, mt1 := false, mt2 := false, csm := false,
               nts := false, dam := false, dvb := false, rhy := false, bd := false, sd := false, tom := false,
               tc := false, hh := false, ext := 0, new := false } ∧
    (∀ o, t.op o = { am := false, vib := false, egt := false, ksr := false, mult := 0, ksl := 0, tl := 0, ar := 0, dr := 0,
                     sl := 0, rr := 0, wsReg := 0, wave := 0, cnt := 0, phase := .off, vol := 511, key := 0, fb0 := 0,
                     fb1 := 0 }) ∧
    ∀ c, (t.chan c).own = { fnum := 0, block := 0, fb := 0, con := false, cha := false, chb := false, panL := true,
                            panR := true, chanout := 0, peak := 0, slot1 := Op.reset, slot2 := Op.reset }

/-- Reset idempotence: after any run of commands `RESET` leaves the state that it leaves at once, but for the events it
emits and the commands still to come (70_reset_and_hazards.md R403). -/
def Obligations.ResetForgetsEveryRun : Prop :=
  ∀ (n : Nat) (s u : State), core.run n s = .next u →
    ∃ t v : State, exec .reset s = .next t ∧ exec .reset u = .next v ∧
      v = { t with input := v.input, out := v.out }

/-- The state after reset satisfies the invariants, in both variants (10_state.md R42, 70_reset_and_hazards.md R400). -/
def Obligations.ResetStateIsSafe : Prop :=
  SafeState State.reset ∧ ∀ x, SafeState (State.resetOf (stdConfig x))

/-- The invariants of 10_state.md R42 are kept by every step: bounded attenuation, history, buses and mix, consistent
status, live noise register, reduced counters, and nothing in V1 that V1 lacks. -/
def Obligations.SafeStateIsKeptByEveryStep : Prop :=
  ∀ s t : State, SafeState s → step s = .next t → SafeState t

/-- After `RESET` every tick outputs 0, however many pass, in every configuration (48_sample_tick.md R351). -/
def Obligations.SilenceAfterReset : Prop :=
  ∀ (cfg : Config) (n : Nat), ∃ t : State,
    core.run n { State.resetOf cfg with input := traceTicks n } = .next t ∧
      t.input = [] ∧ SilentState t ∧ t.mixL = 0 ∧ t.mixR = 0 ∧ ∀ c, (t.chan c).chanout = 0

/-- Only a key event ends silence: every command but a data write, a key write and a timer-1 expiry leaves a silent state
silent, and a tick of a silent state outputs 0 (48_sample_tick.md R351). -/
def Obligations.SilenceLastsUntilAKeyEvent : Prop :=
  ∀ (s t : State) (i : Instr), SilentState s → exec i s = .next t →
    (SilentState t ∨ isKeyWrite i = true ∨ i = .texp0 ∨ ∃ v, i = .wrd v) ∧
    (i = .tick → t.mixL = 0 ∧ t.mixR = 0 ∧ ∀ c, s.hasChan c = true → (t.chan c).chanout = 0)

/-! ### The waveforms (40_tables.md, 43_operator_output.md) -/

/-- The output of an operator is the converter at sixteen times the attenuation plus the entry of the operator's waveform at
the phase index modulo 1024, for every sign of the index (43_operator_output.md R213); without feedback the index is the
integer part of the accumulator plus the modulation, and at the quiet threshold the output is 0 (R218). The waveforms of
the standard tables are made of the logarithmic sine, which its first quarter determines, as 40_tables.md R133 to R141 say;
V1 has the first four. -/
def Obligations.OperatorOutputIsTheConvertedWaveform : Prop :=
  (∀ (cfg : Config) (p : Op) (x : Int) (e : Nat),
    opOut cfg p x e = expOut cfg (e * 16 + waveTab cfg p.wave (x % 1024).toNat) ∧
    opOut cfg p (x + 1024) e = opOut cfg p x e ∧
    (boundedConfig cfg = true → (opOut cfg p x e).natAbs ≤ 4084)) ∧
  (∀ (s : State) (o : OpRef) (pm : Int),
    slotN s o pm = if env s o < (match s.cfg.variant with | .v1 => 384 | .v2 => 416) then
      opOut s.cfg (s.op o) ((s.op o).cnt.toNat / 65536 + pm) (env s o) else 0) ∧
  ∀ (cfg : Config) (i : Nat), cfg.tables = stdTables cfg.variant → i < 1024 →
    let mute := match cfg.variant with | .v1 => 6144 | .v2 => 6656
    let sine := logsin cfg
    (i < 256 → sine i = rows16 logsinQuarterStd i) ∧
    (256 ≤ i → i ≤ 511 → sine i = sine (511 - i)) ∧
    (512 ≤ i → sine i = sine (i - 512) ||| 1) ∧
    waveTab cfg 0 i = sine i ∧
    waveTab cfg 1 i = (if i.testBit 9 then mute else sine i) ∧
    waveTab cfg 2 i = sine (i &&& 511) ∧
    waveTab cfg 3 i = (if i.testBit 8 then mute else sine (i &&& 255)) ∧
    (cfg.variant = .v2 →
      waveTab cfg 4 i = (if i.testBit 9 then mute else sine (2 * i)) ∧
      waveTab cfg 5 i = (if i.testBit 9 then mute else sine (2 * i &&& 511)) ∧
      waveTab cfg 6 i = (if i.testBit 9 then 1 else 0) ∧
      waveTab cfg 7 i = min (if i.testBit 9 then (1023 - i) * 16 + 1 else i * 16) mute)
end

