-- ==== Sys2Proof/Laws/State.lean ====
section
/-! SUPPORT. One lemma for each field under each update of State.lean and Ops.lean, so that no proof unfolds a record
update; and what each of those updates does to a channel and to an operator. -/

namespace Sys2Proof.Machine

/-! ### Fields under the updates of the outputs -/

@[simp] theorem begin_cfg (s : State) : s.begin.cfg = s.cfg := rfl
@[simp] theorem begin_input (s : State) : s.begin.input = s.input := rfl
@[simp] theorem begin_live (s : State) : s.begin.live = s.live := rfl
@[simp] theorem begin_glob (s : State) : s.begin.glob = s.glob := rfl
@[simp] theorem begin_addr (s : State) : s.begin.addr = s.addr := rfl
@[simp] theorem begin_gens (s : State) : s.begin.gens = s.gens := rfl
@[simp] theorem begin_status (s : State) : s.begin.status = s.status := rfl
@[simp] theorem begin_mixL (s : State) : s.begin.mixL = s.mixL := rfl
@[simp] theorem begin_mixR (s : State) : s.begin.mixR = s.mixR := rfl
@[simp] theorem begin_chans (s : State) : s.begin.chans = s.chans := rfl

@[simp] theorem emit_cfg (s : State) (e : Emitted) : (s.emit e).cfg = s.cfg := rfl
@[simp] theorem emit_input (s : State) (e : Emitted) : (s.emit e).input = s.input := rfl
@[simp] theorem emit_live (s : State) (e : Emitted) : (s.emit e).live = s.live := rfl
@[simp] theorem emit_glob (s : State) (e : Emitted) : (s.emit e).glob = s.glob := rfl
@[simp] theorem emit_addr (s : State) (e : Emitted) : (s.emit e).addr = s.addr := rfl
@[simp] theorem emit_gens (s : State) (e : Emitted) : (s.emit e).gens = s.gens := rfl
@[simp] theorem emit_status (s : State) (e : Emitted) : (s.emit e).status = s.status := rfl
@[simp] theorem emit_mixL (s : State) (e : Emitted) : (s.emit e).mixL = s.mixL := rfl
@[simp] theorem emit_mixR (s : State) (e : Emitted) : (s.emit e).mixR = s.mixR := rfl
@[simp] theorem emit_chans (s : State) (e : Emitted) : (s.emit e).chans = s.chans := rfl

@[simp] theorem returns_cfg (s : State) (r : Result) : (s.returns r).cfg = s.cfg := rfl
@[simp] theorem returns_input (s : State) (r : Result) : (s.returns r).input = s.input := rfl
@[simp] theorem returns_live (s : State) (r : Result) : (s.returns r).live = s.live := rfl
@[simp] theorem returns_glob (s : State) (r : Result) : (s.returns r).glob = s.glob := rfl
@[simp] theorem returns_addr (s : State) (r : Result) : (s.returns r).addr = s.addr := rfl
@[simp] theorem returns_gens (s : State) (r : Result) : (s.returns r).gens = s.gens := rfl
@[simp] theorem returns_status (s : State) (r : Result) : (s.returns r).status = s.status := rfl
@[simp] theorem returns_mixL (s : State) (r : Result) : (s.returns r).mixL = s.mixL := rfl
@[simp] theorem returns_mixR (s : State) (r : Result) : (s.returns r).mixR = s.mixR := rfl
@[simp] theorem returns_chans (s : State) (r : Result) : (s.returns r).chans = s.chans := rfl

@[simp] theorem returnsIrq_cfg (s : State) : s.returnsIrq.cfg = s.cfg := rfl
@[simp] theorem returnsIrq_input (s : State) : s.returnsIrq.input = s.input := rfl
@[simp] theorem returnsIrq_live (s : State) : s.returnsIrq.live = s.live := rfl
@[simp] theorem returnsIrq_glob (s : State) : s.returnsIrq.glob = s.glob := rfl
@[simp] theorem returnsIrq_addr (s : State) : s.returnsIrq.addr = s.addr := rfl
@[simp] theorem returnsIrq_gens (s : State) : s.returnsIrq.gens = s.gens := rfl
@[simp] theorem returnsIrq_status (s : State) : s.returnsIrq.status = s.status := rfl
@[simp] theorem returnsIrq_mixL (s : State) : s.returnsIrq.mixL = s.mixL := rfl
@[simp] theorem returnsIrq_mixR (s : State) : s.returnsIrq.mixR = s.mixR := rfl
@[simp] theorem returnsIrq_chans (s : State) : s.returnsIrq.chans = s.chans := rfl

@[simp] theorem begin_out (s : State) : s.begin.out = { result := .none, events := [] } := rfl
@[simp] theorem emit_out (s : State) (e : Emitted) :
    (s.emit e).out = { s.out with events := s.out.events ++ [e] } := rfl
@[simp] theorem returns_out (s : State) (r : Result) : (s.returns r).out = { s.out with result := r } := rfl
@[simp] theorem returnsIrq_out (s : State) : s.returnsIrq.out = { s.out with result := .irq s.irq } := rfl

@[simp] theorem begin_chan (s : State) (c : Chan) : s.begin.chan c = s.chan c := rfl
@[simp] theorem begin_op (s : State) (o : OpRef) : s.begin.op o = s.op o := rfl
@[simp] theorem begin_hasChan (s : State) (c : Chan) : s.begin.hasChan c = s.hasChan c := rfl
@[simp] theorem emit_chan (s : State) (e : Emitted) (c : Chan) : (s.emit e).chan c = s.chan c := rfl
@[simp] theorem emit_op (s : State) (e : Emitted) (o : OpRef) : (s.emit e).op o = s.op o := rfl
@[simp] theorem emit_hasChan (s : State) (e : Emitted) (c : Chan) : (s.emit e).hasChan c = s.hasChan c := rfl
@[simp] theorem returns_chan (s : State) (r : Result) (c : Chan) : (s.returns r).chan c = s.chan c := rfl
@[simp] theorem returns_op (s : State) (r : Result) (o : OpRef) : (s.returns r).op o = s.op o := rfl
@[simp] theorem returns_hasChan (s : State) (r : Result) (c : Chan) : (s.returns r).hasChan c = s.hasChan c := rfl
@[simp] theorem returnsIrq_chan (s : State) (c : Chan) : s.returnsIrq.chan c = s.chan c := rfl
@[simp] theorem returnsIrq_op (s : State) (o : OpRef) : s.returnsIrq.op o = s.op o := rfl
@[simp] theorem returnsIrq_hasChan (s : State) (c : Chan) : s.returnsIrq.hasChan c = s.hasChan c := rfl

/-! ### Fields under the updates of the channels -/

@[simp] theorem setChan_cfg (s : State) (c : Chan) (x : Channel) : (s.setChan c x).cfg = s.cfg := rfl
@[simp] theorem setChan_input (s : State) (c : Chan) (x : Channel) : (s.setChan c x).input = s.input := rfl
@[simp] theorem setChan_live (s : State) (c : Chan) (x : Channel) : (s.setChan c x).live = s.live := rfl
@[simp] theorem setChan_out (s : State) (c : Chan) (x : Channel) : (s.setChan c x).out = s.out := rfl
@[simp] theorem setChan_glob (s : State) (c : Chan) (x : Channel) : (s.setChan c x).glob = s.glob := rfl
@[simp] theorem setChan_addr (s : State) (c : Chan) (x : Channel) : (s.setChan c x).addr = s.addr := rfl
@[simp] theorem setChan_gens (s : State) (c : Chan) (x : Channel) : (s.setChan c x).gens = s.gens := rfl
@[simp] theorem setChan_status (s : State) (c : Chan) (x : Channel) : (s.setChan c x).status = s.status := rfl
@[simp] theorem setChan_mixL (s : State) (c : Chan) (x : Channel) : (s.setChan c x).mixL = s.mixL := rfl
@[simp] theorem setChan_mixR (s : State) (c : Chan) (x : Channel) : (s.setChan c x).mixR = s.mixR := rfl

@[simp] theorem updChan_cfg (s : State) (c : Chan) (f : Channel → Channel) :
    (s.updChan c f).cfg = s.cfg := by unfold State.updChan; split <;> rfl
@[simp] theorem updChan_input (s : State) (c : Chan) (f : Channel → Channel) :
    (s.updChan c f).input = s.input := by unfold State.updChan; split <;> rfl
@[simp] theorem updChan_live (s : State) (c : Chan) (f : Channel → Channel) :
    (s.updChan c f).live = s.live := by unfold State.updChan; split <;> rfl
@[simp] theorem updChan_out (s : State) (c : Chan) (f : Channel → Channel) :
    (s.updChan c f).out = s.out := by unfold State.updChan; split <;> rfl
@[simp] theorem updChan_glob (s : State) (c : Chan) (f : Channel → Channel) :
    (s.updChan c f).glob = s.glob := by unfold State.updChan; split <;> rfl
@[simp] theorem updChan_addr (s : State) (c : Chan) (f : Channel → Channel) :
    (s.updChan c f).addr = s.addr := by unfold State.updChan; split <;> rfl
@[simp] theorem updChan_gens (s : State) (c : Chan) (f : Channel → Channel) :
    (s.updChan c f).gens = s.gens := by unfold State.updChan; split <;> rfl
@[simp] theorem updChan_status (s : State) (c : Chan) (f : Channel → Channel) :
    (s.updChan c f).status = s.status := by unfold State.updChan; split <;> rfl
@[simp] theorem updChan_mixL (s : State) (c : Chan) (f : Channel → Channel) :
    (s.updChan c f).mixL = s.mixL := by unfold State.updChan; split <;> rfl
@[simp] theorem updChan_mixR (s : State) (c : Chan) (f : Channel → Channel) :
    (s.updChan c f).mixR = s.mixR := by unfold State.updChan; split <;> rfl

@[simp] theorem updOp_cfg (s : State) (o : OpRef) (f : Op → Op) : (s.updOp o f).cfg = s.cfg := by
  unfold State.updOp; rw [updChan_cfg]
@[simp] theorem updOp_input (s : State) (o : OpRef) (f : Op → Op) : (s.updOp o f).input = s.input := by
  unfold State.updOp; rw [updChan_input]
@[simp] theorem updOp_live (s : State) (o : OpRef) (f : Op → Op) : (s.updOp o f).live = s.live := by
  unfold State.updOp; rw [updChan_live]
@[simp] theorem updOp_out (s : State) (o : OpRef) (f : Op → Op) : (s.updOp o f).out = s.out := by
  unfold State.updOp; rw [updChan_out]
@[simp] theorem updOp_glob (s : State) (o : OpRef) (f : Op → Op) : (s.updOp o f).glob = s.glob := by
  unfold State.updOp; rw [updChan_glob]
@[simp] theorem updOp_addr (s : State) (o : OpRef) (f : Op → Op) : (s.updOp o f).addr = s.addr := by
  unfold State.updOp; rw [updChan_addr]
@[simp] theorem updOp_gens (s : State) (o : OpRef) (f : Op → Op) : (s.updOp o f).gens = s.gens := by
  unfold State.updOp; rw [updChan_gens]
@[simp] theorem updOp_status (s : State) (o : OpRef) (f : Op → Op) : (s.updOp o f).status = s.status := by
  unfold State.updOp; rw [updChan_status]
@[simp] theorem updOp_mixL (s : State) (o : OpRef) (f : Op → Op) : (s.updOp o f).mixL = s.mixL := by
  unfold State.updOp; rw [updChan_mixL]
@[simp] theorem updOp_mixR (s : State) (o : OpRef) (f : Op → Op) : (s.updOp o f).mixR = s.mixR := by
  unfold State.updOp; rw [updChan_mixR]

@[simp] theorem mapChans_cfg (s : State) (f : Chan → Channel → Channel) :
    (s.mapChans f).cfg = s.cfg := by
  simp only [State.mapChans]
@[simp] theorem mapChans_input (s : State) (f : Chan → Channel → Channel) :
    (s.mapChans f).input = s.input := by
  simp only [State.mapChans]
@[simp] theorem mapChans_live (s : State) (f : Chan → Channel → Channel) :
    (s.mapChans f).live = s.live := by
  simp only [State.mapChans]
@[simp] theorem mapChans_out (s : State) (f : Chan → Channel → Channel) :
    (s.mapChans f).out = s.out := by
  simp only [State.mapChans]
@[simp] theorem mapChans_glob (s : State) (f : Chan → Channel → Channel) :
    (s.mapChans f).glob = s.glob := by
  simp only [State.mapChans]
@[simp] theorem mapChans_addr (s : State) (f : Chan → Channel → Channel) :
    (s.mapChans f).addr = s.addr := by
  simp only [State.mapChans]
@[simp] theorem mapChans_gens (s : State) (f : Chan → Channel → Channel) :
    (s.mapChans f).gens = s.gens := by
  simp only [State.mapChans]
@[simp] theorem mapChans_status (s : State) (f : Chan → Channel → Channel) :
    (s.mapChans f).status = s.status := by
  simp only [State.mapChans]
@[simp] theorem mapChans_mixL (s : State) (f : Chan → Channel → Channel) :
    (s.mapChans f).mixL = s.mixL := by
  simp only [State.mapChans]
@[simp] theorem mapChans_mixR (s : State) (f : Chan → Channel → Channel) :
    (s.mapChans f).mixR = s.mixR := by
  simp only [State.mapChans]

/-! ### The operators of a channel -/

@[simp] theorem setOp_op_same (ch : Channel) (sl : Slot) (p : Op) : (ch.setOp sl p).op sl = p := by cases sl <;> rfl

@[simp] theorem setOp_op_ne (ch : Channel) {sl sl' : Slot} (p : Op) (h : sl' ≠ sl) :
    (ch.setOp sl p).op sl' = ch.op sl' := by
  cases sl <;> cases sl' <;> first | exact absurd rfl h | rfl

@[simp] theorem setOp_op_self (ch : Channel) (sl : Slot) : ch.setOp sl (ch.op sl) = ch := by cases sl <;> rfl

@[simp] theorem mapOps_op (ch : Channel) (f : Slot → Op → Op) (sl : Slot) :
    (ch.mapOps f).op sl = f sl (ch.op sl) := by cases sl <;> rfl

@[simp] theorem setOp_fnum (ch : Channel) (sl : Slot) (p : Op) : (ch.setOp sl p).fnum = ch.fnum := by cases sl <;> rfl
@[simp] theorem setOp_block (ch : Channel) (sl : Slot) (p : Op) : (ch.setOp sl p).block = ch.block := by cases sl <;> rfl
@[simp] theorem setOp_fb (ch : Channel) (sl : Slot) (p : Op) : (ch.setOp sl p).fb = ch.fb := by cases sl <;> rfl
@[simp] theorem setOp_con (ch : Channel) (sl : Slot) (p : Op) : (ch.setOp sl p).con = ch.con := by cases sl <;> rfl
@[simp] theorem setOp_cha (ch : Channel) (sl : Slot) (p : Op) : (ch.setOp sl p).cha = ch.cha := by cases sl <;> rfl
@[simp] theorem setOp_chb (ch : Channel) (sl : Slot) (p : Op) : (ch.setOp sl p).chb = ch.chb := by cases sl <;> rfl
@[simp] theorem setOp_panL (ch : Channel) (sl : Slot) (p : Op) : (ch.setOp sl p).panL = ch.panL := by cases sl <;> rfl
@[simp] theorem setOp_panR (ch : Channel) (sl : Slot) (p : Op) : (ch.setOp sl p).panR = ch.panR := by cases sl <;> rfl
@[simp] theorem setOp_chanout (ch : Channel) (sl : Slot) (p : Op) : (ch.setOp sl p).chanout = ch.chanout := by cases sl <;> rfl
@[simp] theorem setOp_peak (ch : Channel) (sl : Slot) (p : Op) : (ch.setOp sl p).peak = ch.peak := by cases sl <;> rfl

@[simp] theorem mapOps_fnum (ch : Channel) (f : Slot → Op → Op) : (ch.mapOps f).fnum = ch.fnum := rfl
@[simp] theorem mapOps_block (ch : Channel) (f : Slot → Op → Op) : (ch.mapOps f).block = ch.block := rfl
@[simp] theorem mapOps_fb (ch : Channel) (f : Slot → Op → Op) : (ch.mapOps f).fb = ch.fb := rfl
@[simp] theorem mapOps_con (ch : Channel) (f : Slot → Op → Op) : (ch.mapOps f).con = ch.con := rfl
@[simp] theorem mapOps_cha (ch : Channel) (f : Slot → Op → Op) : (ch.mapOps f).cha = ch.cha := rfl
@[simp] theorem mapOps_chb (ch : Channel) (f : Slot → Op → Op) : (ch.mapOps f).chb = ch.chb := rfl
@[simp] theorem mapOps_panL (ch : Channel) (f : Slot → Op → Op) : (ch.mapOps f).panL = ch.panL := rfl
@[simp] theorem mapOps_panR (ch : Channel) (f : Slot → Op → Op) : (ch.mapOps f).panR = ch.panR := rfl
@[simp] theorem mapOps_chanout (ch : Channel) (f : Slot → Op → Op) : (ch.mapOps f).chanout = ch.chanout := rfl
@[simp] theorem mapOps_peak (ch : Channel) (f : Slot → Op → Op) : (ch.mapOps f).peak = ch.peak := rfl

end Sys2Proof.Machine
end

