-- ==== Sys2Proof/Laws/Ops.lean ====
section
/-! SUPPORT. One lemma for each shared operation of Ops.lean and Flags.lean that says once everything it can do. -/

namespace Sys2Proof.Machine

/-! ### Reading a channel or an operator after an update -/

/-- `ch[c]` as an entry of the vector. -/
theorem chan_eq_getElem (s : State) (c : Chan) : s.chan c = s.chans[c.val] := rfl

/-- `ch[d]` after `ch[c]` was replaced. -/
theorem setChan_chan (s : State) (c d : Chan) (x : Channel) :
    (s.setChan c x).chan d = if d = c then x else s.chan d := by
  simp only [chan_eq_getElem, State.setChan, Vector.getElem_set, Fin.ext_iff, eq_comm]

/-- `ch[d]` after `ch[c]` was changed by `f`. -/
theorem updChan_chan (s : State) (c d : Chan) (f : Channel → Channel) :
    (s.updChan c f).chan d = if d = c ∧ s.hasChan c = true then f (s.chan c) else s.chan d := by
  unfold State.updChan
  split
  · next h => simp [setChan_chan, h]
  · next h => simp [h]

/-- `ch[d]` after `op[c][s]` was changed by `f`. -/
theorem updOp_chan (s : State) (o : OpRef) (f : Op → Op) (d : Chan) :
    (s.updOp o f).chan d =
      if d = o.ch ∧ s.hasChan o.ch = true then (s.chan o.ch).setOp o.slot (f (s.op o)) else s.chan d := by
  unfold State.updOp State.op
  exact updChan_chan s o.ch d _

/-- An operator after `op[c][s]` was changed by `f`. -/
theorem updOp_op (s : State) (o q : OpRef) (f : Op → Op) :
    (s.updOp o f).op q = if q = o ∧ s.hasChan o.ch = true then f (s.op o) else s.op q := by
  rcases o with ⟨c, sl⟩
  rcases q with ⟨d, sm⟩
  simp only [State.op, updOp_chan, OpRef.mk.injEq]
  by_cases h : d = c
  · subst h
    by_cases hc : s.hasChan d = true <;> by_cases e : sm = sl
    · subst e; simp [hc]
    · simp [hc, e]
    · simp [hc]
    · simp [hc]
  · simp [h]

/-- `ch[c]` after every channel of the instance was changed by `f`. -/
theorem mapChans_chan (s : State) (f : Chan → Channel → Channel) (c : Chan) :
    (s.mapChans f).chan c = if s.hasChan c = true then f c (s.chan c) else s.chan c := by
  simp only [chan_eq_getElem, State.mapChans, Vector.getElem_ofFn]

@[simp] theorem setChan_hasChan (s : State) (c d : Chan) (x : Channel) :
    (s.setChan c x).hasChan d = s.hasChan d := rfl

@[simp] theorem updChan_hasChan (s : State) (c d : Chan) (f : Channel → Channel) :
    (s.updChan c f).hasChan d = s.hasChan d := by unfold State.hasChan; rw [updChan_cfg]

@[simp] theorem updOp_hasChan (s : State) (o : OpRef) (f : Op → Op) (d : Chan) :
    (s.updOp o f).hasChan d = s.hasChan d := by unfold State.hasChan; rw [updOp_cfg]

@[simp] theorem mapChans_hasChan (s : State) (f : Chan → Channel → Channel) (d : Chan) :
    (s.mapChans f).hasChan d = s.hasChan d := by unfold State.hasChan; rw [mapChans_cfg]

/-- V2 has every channel. -/
theorem hasChan_v2 {s : State} (h : s.cfg.variant = .v2) (c : Chan) : s.hasChan c = true := by
  have : c.val < 18 := c.isLt
  simp [State.hasChan, h, nch]

/-- V1 has the channels 0 to 8. -/
theorem hasChan_v1 {s : State} (h : s.cfg.variant = .v1) (c : Chan) : s.hasChan c = decide (c.val < 9) := by
  simp [State.hasChan, h, nch]

/-- Channel `c` exists in the instance exactly when it exists in its variant. -/
theorem hasChan_eq (s : State) (c : Chan) : s.hasChan c = chanExists s.cfg.variant c := by
  cases h : s.cfg.variant
  · rw [hasChan_v1 h, chanExists]
  · rw [hasChan_v2 h, chanExists]

/-- Two channel vectors that agree channel by channel are equal. -/
theorem chans_ext {s t : State} (h : ∀ c, s.chan c = t.chan c) : s.chans = t.chans := by
  apply Vector.ext
  intro i hi
  have := h ⟨i, hi⟩
  simpa [State.chan, Vector.get] using this

/-- A channel is its ten fields and its two operators. -/
theorem channel_ext_ops {a b : Channel} (h1 : a.op .one = b.op .one) (h2 : a.op .two = b.op .two)
    (h : { a with slot1 := Op.reset, slot2 := Op.reset } = { b with slot1 := Op.reset, slot2 := Op.reset }) :
    a = b := by
  cases a; cases b
  simp_all [Channel.op]

/-! ### The frame of a command -/

/-- A command answers a next state exactly when the instance has been reset, and then the one its rule gives. -/
theorem command_next {s t : State} {f : State → State} : command s f = .next t ↔ s.live = true ∧ t = f s.begin := by
  unfold command
  split
  · next h => simp [h, eq_comm]
  · next h => simp [h]

/-- A command on an instance that has been reset. -/
theorem command_live {s : State} (h : s.live = true) (f : State → State) : command s f = .next (f s.begin) := by
  simp [command, h]

/-- A command never stops with a fault. -/
theorem command_not_fault (s : State) (f : State → State) (e : Fault) : command s f ≠ .fault e := by cases e

/-! ### Key events -/

/-- What a key-on leaves. -/
theorem keyOn_spec (b : BitVec 3) (p : Op) :
    keyOn b p = { p with key := p.key ||| b
                         cnt := if p.key = 0 then 0 else p.cnt
                         phase := if p.key = 0 then .att else p.phase } := by
  unfold keyOn; split <;> simp_all

/-- What a key-off leaves. -/
theorem keyOff_spec (b : BitVec 3) (p : Op) :
    keyOff b p = { p with key := p.key &&& ~~~b
                          phase := if p.key ≠ 0 ∧ p.key &&& ~~~b = 0 ∧ p.phase ≠ .off then .rel else p.phase } := by
  have num : (Phase.rel.num < p.phase.num) ↔ (p.phase ≠ .off ∧ p.phase ≠ .rel) := by
    cases p.phase <;> simp [Phase.num]
  rcases p with ⟨_, _, _, _, _, _, _, _, _, _, _, _, _, _, ph, _, k, _, _⟩
  unfold keyOff
  split
  · next h => simp_all
  · next h =>
    dsimp only at *
    by_cases hk : k &&& ~~~b = 0
    · cases ph <;> simp_all [Phase.num]
    · have hk' : ¬k &&& ~~~b = 0#3 := hk
      simp [hk']

/-- The part of an operator that no key event touches. -/
theorem keyEvent_frame (on : Bool) (b : BitVec 3) (p : Op) :
    keyEvent on b p = { p with cnt := (keyEvent on b p).cnt, phase := (keyEvent on b p).phase,
                               key := (keyEvent on b p).key } := by
  unfold keyEvent
  cases on
  · simp [keyOff_spec]
  · simp [keyOn_spec]

/-! ### Flags -/

/-- `IrqSet` changes the status byte and the events emitted, nothing else. -/
theorem irqSet_frame (f : Byte) (s : State) :
    irqSet f s = { s with status := (irqSet f s).status, out := (irqSet f s).out } := by
  unfold irqSet; dsimp only; split <;> rfl

/-- `IrqClear` changes the status byte and the events emitted, nothing else. -/
theorem irqClear_frame (f : Byte) (s : State) :
    irqClear f s = { s with status := (irqClear f s).status, out := (irqClear f s).out } := by
  unfold irqClear; dsimp only; split <;> rfl

end Sys2Proof.Machine
end

