-- ==== Sys2Proof/Laws/Advance.lean ====
section
/-! SUPPORT. What steps 5 to 8 of a tick can do, and the bounds of what the lookups answer on a bounded configuration. -/

namespace Sys2Proof.Machine

/-- What one round keeps, any number of rounds keeps. -/
theorem repeat_keeps {α : Type} {P : α → Prop} {f : α → α} (h : ∀ a, P a → P (f a)) (n : Nat) {a : α} (ha : P a) :
    P (Nat.repeat f n a) := by
  induction n with
  | zero => exact ha
  | succ n ih => exact h _ ih

/-! ### Envelope and phase -/

theorem attackStep_frame (s : State) (o : OpRef) :
    attackStep s o = { s.op o with vol := (attackStep s o).vol, phase := (attackStep s o).phase } := by
  unfold attackStep; dsimp only; (repeat' split) <;> rfl

theorem decayStep_frame (s : State) (o : OpRef) :
    decayStep s o = { s.op o with vol := (decayStep s o).vol, phase := (decayStep s o).phase } := by
  unfold decayStep; dsimp only; split <;> rfl

theorem sustainStep_frame (s : State) (o : OpRef) :
    sustainStep s o = { s.op o with vol := (sustainStep s o).vol, phase := (sustainStep s o).phase } := by
  unfold sustainStep; dsimp only; (repeat' split) <;> rfl

theorem releaseStep_frame (s : State) (o : OpRef) :
    releaseStep s o = { s.op o with vol := (releaseStep s o).vol, phase := (releaseStep s o).phase } := by
  unfold releaseStep; dsimp only; (repeat' split) <;> rfl

/-- An envelope step writes the attenuation and the phase of its operator, nothing else. -/
theorem egStep_frame (s : State) (o : OpRef) :
    egStep s o = { s.op o with vol := (egStep s o).vol, phase := (egStep s o).phase } := by
  unfold egStep
  split
  · exact attackStep_frame s o
  · exact decayStep_frame s o
  · exact sustainStep_frame s o
  · exact releaseStep_frame s o
  · rfl

/-- A channel after one envelope step. -/
theorem egTick_chan (s : State) (c : Chan) :
    (egTick s).chan c = if s.hasChan c = true then
        (s.chan c).mapOps fun sl _ => egStep { s with gens := { s.gens with egCnt := s.gens.egCnt + 1 } } ⟨c, sl⟩
      else s.chan c := by
  unfold egTick
  dsimp only
  rw [mapChans_chan]
  rfl

/-- An envelope step writes the envelope counter and the channels. -/
theorem egTick_frame (s : State) :
    egTick s = { s with gens := { s.gens with egCnt := s.gens.egCnt + 1 }, chans := (egTick s).chans } := by
  unfold egTick State.mapChans; rfl

/-- A channel after the phase step. -/
theorem phaseAdvance_chan (s : State) (c : Chan) :
    (phaseAdvance s).chan c =
      if s.hasChan c = true then (s.chan c).mapOps fun sl _ => phaseStep s ⟨c, sl⟩ else s.chan c := by
  unfold phaseAdvance; rw [mapChans_chan]

/-- The phase step writes the channels. -/
theorem phaseAdvance_frame (s : State) : phaseAdvance s = { s with chans := (phaseAdvance s).chans } := by
  unfold phaseAdvance State.mapChans; rfl

/-- A channel after the peak step. -/
theorem peakStep_chan (s : State) (c : Chan) :
    (peakStep s).chan c =
      if s.hasChan c = true then
        { s.chan c with peak := BitVec.ofNat 32 (max (s.chan c).peak.toNat (s.chan c).chanout.toInt.natAbs) }
      else s.chan c := by
  unfold peakStep; rw [mapChans_chan]

/-- The peak step writes the channels. -/
theorem peakStep_frame (s : State) : peakStep s = { s with chans := (peakStep s).chans } := by
  unfold peakStep State.mapChans; rfl

/-- The noise step writes the noise register and its accumulator. -/
theorem noiseAdvance_frame (s : State) :
    noiseAdvance s = { s with gens := { s.gens with
      noiseP := (noiseAdvance s).gens.noiseP, noiseRng := (noiseAdvance s).gens.noiseRng } } := rfl

/-- The envelope steps of a tick keep the configuration. -/
theorem egAdvance_cfg (s : State) : (egAdvance s).cfg = s.cfg := by
  unfold egAdvance
  dsimp only
  exact repeat_keeps (P := fun t : State => t.cfg = s.cfg) (fun t h => by rw [egTick_frame]; exact h) _ rfl

/-! ### Bounds of the lookups -/

theorem getD_le {l : List Nat} {b : Nat} (h : l.all (· ≤ b) = true) (i : Nat) : l.getD i 0 ≤ b := by
  rw [List.getD_eq_getElem?_getD]
  cases e : l[i]? with
  | none => exact Nat.zero_le _
  | some x =>
    have := List.all_eq_true.mp h x (List.mem_of_getElem? e)
    simpa using this

theorem getD_row_all {t : List (List Nat)} {b : Nat} (h : t.all (·.all (· ≤ b)) = true) (i : Nat) :
    (t.getD i []).all (· ≤ b) = true := by
  rw [List.getD_eq_getElem?_getD]
  cases e : t[i]? with
  | none => rfl
  | some x => exact List.all_eq_true.mp h x (List.mem_of_getElem? e)

theorem rows16_le {t : List (List Nat)} {b : Nat} (h : t.all (·.all (· ≤ b)) = true) (i : Nat) : rows16 t i ≤ b :=
  getD_le (getD_row_all h _) _

theorem exp_bounded {cfg : Config} (h : boundedConfig cfg = true) (x : Nat) : expTab cfg x ≤ 4084 := by
  simp only [boundedConfig, tablesBounded, Bool.and_eq_true] at h
  exact rows16_le h.1.1.1.1.1.1.1.1.1.2 x

/-- `WAVE[w][i] <= TL_LEN` (40_tables.md R153). -/
theorem wave_bounded {cfg : Config} (h : boundedConfig cfg = true) (w : BitVec 3) (i : Nat) :
    waveTab cfg w i ≤ tlLen cfg.variant := by
  simp only [boundedConfig, tablesBounded, Bool.and_eq_true] at h
  refine rows16_le ?_ i
  rw [List.getD_eq_getElem?_getD]
  cases e : cfg.tables.wave[w.toNat]? with
  | none => rfl
  | some t => exact List.all_eq_true.mp h.1.1.1.1.1.1.1.1.1.1 t (List.mem_of_getElem? e)

theorem slEff_bounded {cfg : Config} (h : boundedConfig cfg = true) (sl : BitVec 4) : slEff cfg sl ≤ 496 := by
  simp only [boundedConfig, tablesBounded, Bool.and_eq_true] at h
  exact getD_le h.1.1.1.1.1.1.2 _

theorem egInc_bounded {cfg : Config} (h : boundedConfig cfg = true) (sel j : Nat) : egIncTab cfg sel j ≤ 8 := by
  simp only [boundedConfig, tablesBounded, Bool.and_eq_true] at h
  exact getD_le (getD_row_all h.1.1.1.1.1.2 _) _

/-- The tables as printed are within their bounds (40_tables.md R153). -/
theorem stdTables_bounded (x : Variant) : tablesBounded x (stdTables x) = true := by cases x <;> decide +kernel

/-- The standard configuration of either variant is bounded. -/
theorem stdConfig_bounded (x : Variant) : boundedConfig (stdConfig x) = true := by
  rw [boundedConfig, show (stdConfig x).variant = x from rfl, show (stdConfig x).tables = stdTables x from rfl,
    stdTables_bounded]
  cases x <;> rfl

theorem egOvf_pos {cfg : Config} (h : boundedConfig cfg = true) : 0 < cfg.rates.egOvf.toNat := by
  simp only [boundedConfig, Bool.and_eq_true, decide_eq_true_eq] at h
  exact h.1.2

theorem lfoAmInc_le {cfg : Config} (h : boundedConfig cfg = true) : cfg.rates.lfoAmInc.toNat ≤ 2 ^ 24 := by
  simp only [boundedConfig, Bool.and_eq_true, decide_eq_true_eq] at h
  exact h.2

/-- An attack step never raises the attenuation. -/
theorem attackValue_le (vol : BitVec 9) (inc : Nat) : attackValue vol inc ≤ vol.toNat := by
  unfold attackValue asr
  have h : (-(vol.toNat : Int) - 1) * (inc : Int) ≤ 0 :=
    Int.mul_nonpos_of_nonpos_of_nonneg (by omega) (by omega)
  rw [Int.shiftRight_eq_div_pow]
  omega

end Sys2Proof.Machine
end

