-- ==== Sys2Proof/Laws/Table.lean ====
section
/-! SUPPORT. The rows of the opcode table as data: the format-R rows are pairwise disjoint and look at the address only
(30_encoding.md R114). -/

namespace Sys2Proof.Laws

open Sys2Proof

/-- The format of a row, with its mask and its match over the word of the format, or its event. -/
inductive RowFormat where
  | p (mask pattern : BitVec 11)
  | r (mask pattern : BitVec 17)
  | e (ev : HostEvent)
deriving DecidableEq, Repr

/-- One row of the opcode table. -/
structure OpcodeRow where
  mnemonic : String
  format   : RowFormat
  v1       : Bool
  v2       : Bool
deriving DecidableEq, Repr

/-- The row exists in the variant. -/
def OpcodeRow.inVariant (r : OpcodeRow) : Variant → Bool
  | .v1 => r.v1
  | .v2 => r.v2

/-- The row covers an encoded instruction. -/
def OpcodeRow.covers (r : OpcodeRow) : Encoded → Bool
  | .p w => match r.format with
    | .p m b => w &&& m == b
    | .r _ _ => false
    | .e _ => false
  | .r w => match r.format with
    | .p _ _ => false
    | .r m b => w &&& m == b
    | .e _ => false
  | .e ev => match r.format with
    | .p _ _ => false
    | .r _ _ => false
    | .e ev' => ev == ev'

/-- The rows of the formats P and E. -/
def portRows : List OpcodeRow := [
    ⟨"WRA", .p 0x700 0x0, true, true⟩,
    ⟨"WRA", .p 0x700 0x200, true, false⟩,
    ⟨"WRA2", .p 0x700 0x200, false, true⟩,
    ⟨"WRD", .p 0x500 0x100, true, true⟩,
    ⟨"RD", .p 0x400 0x400, true, true⟩,
    ⟨"TEXP0", .e .texp0, true, true⟩,
    ⟨"TEXP1", .e .texp1, true, true⟩,
    ⟨"TICK", .e .tick, true, true⟩,
    ⟨"PEAKCLR", .e .peakclr, true, true⟩,
    ⟨"RESET", .e .reset, true, true⟩]

/-- The rows of the global registers. -/
def globalRows : List OpcodeRow := [
    ⟨"TEST", .r 0x1FF00 0x100, true, true⟩,
    ⟨"TIMER1", .r 0x1FF00 0x200, true, true⟩,
    ⟨"TIMER2", .r 0x1FF00 0x300, true, true⟩,
    ⟨"TCTL", .r 0x1FF00 0x400, true, true⟩,
    ⟨"MODE", .r 0x1FF00 0x800, true, true⟩,
    ⟨"FOUROP", .r 0x1FF00 0x10400, false, true⟩,
    ⟨"NEWMODE", .r 0x1FF00 0x10500, false, true⟩,
    ⟨"RHYTHM", .r 0x1FF00 0xBD00, true, true⟩]

/-- The rows of `OPCHAR`, `OPLEVEL` and `OPAD`. -/
def opRowsA : List OpcodeRow := [
    ⟨"OPCHAR", .r 0xFC00 0x2000, true, true⟩,
    ⟨"OPCHAR", .r 0xFE00 0x2400, true, true⟩,
    ⟨"OPCHAR", .r 0xFC00 0x2800, true, true⟩,
    ⟨"OPCHAR", .r 0xFE00 0x2C00, true, true⟩,
    ⟨"OPCHAR", .r 0xFC00 0x3000, true, true⟩,
    ⟨"OPCHAR", .r 0xFE00 0x3400, true, true⟩,
    ⟨"OPLEVEL", .r 0xFC00 0x4000, true, true⟩,
    ⟨"OPLEVEL", .r 0xFE00 0x4400, true, true⟩,
    ⟨"OPLEVEL", .r 0xFC00 0x4800, true, true⟩,
    ⟨"OPLEVEL", .r 0xFE00 0x4C00, true, true⟩,
    ⟨"OPLEVEL", .r 0xFC00 0x5000, true, true⟩,
    ⟨"OPLEVEL", .r 0xFE00 0x5400, true, true⟩,
    ⟨"OPAD", .r 0xFC00 0x6000, true, true⟩,
    ⟨"OPAD", .r 0xFE00 0x6400, true, true⟩,
    ⟨"OPAD", .r 0xFC00 0x6800, true, true⟩,
    ⟨"OPAD", .r 0xFE00 0x6C00, true, true⟩,
    ⟨"OPAD", .r 0xFC00 0x7000, true, true⟩,
    ⟨"OPAD", .r 0xFE00 0x7400, true, true⟩]

/-- The rows of `OPSR` and `OPWAVE`. -/
def opRowsB : List OpcodeRow := [
    ⟨"OPSR", .r 0xFC00 0x8000, true, true⟩,
    ⟨"OPSR", .r 0xFE00 0x8400, true, true⟩,
    ⟨"OPSR", .r 0xFC00 0x8800, true, true⟩,
    ⟨"OPSR", .r 0xFE00 0x8C00, true, true⟩,
    ⟨"OPSR", .r 0xFC00 0x9000, true, true⟩,
    ⟨"OPSR", .r 0xFE00 0x9400, true, true⟩,
    ⟨"OPWAVE", .r 0xFC00 0xE000, true, true⟩,
    ⟨"OPWAVE", .r 0xFE00 0xE400, true, true⟩,
    ⟨"OPWAVE", .r 0xFC00 0xE800, true, true⟩,
    ⟨"OPWAVE", .r 0xFE00 0xEC00, true, true⟩,
    ⟨"OPWAVE", .r 0xFC00 0xF000, true, true⟩,
    ⟨"OPWAVE", .r 0xFE00 0xF400, true, true⟩]

/-- The rows of the channel registers. -/
def chanRows : List OpcodeRow := [
    ⟨"FNLO", .r 0xF800 0xA000, true, true⟩,
    ⟨"FNLO", .r 0xFF00 0xA800, true, true⟩,
    ⟨"KONBLK", .r 0xF800 0xB000, true, true⟩,
    ⟨"KONBLK", .r 0xFF00 0xB800, true, true⟩,
    ⟨"FBCON", .r 0xE800 0xC000, true, true⟩,
    ⟨"FBCON", .r 0xEF00 0xC800, true, true⟩]

/-- The rows of format R. -/
def regRows : List OpcodeRow := globalRows ++ opRowsA ++ opRowsB ++ chanRows

/-- The opcode table. -/
def opcodeRows : List OpcodeRow := portRows ++ regRows

/-- The mnemonic of an instruction in the table. -/
def mnemonicOf : Instr → String
  | .wra _ => "WRA"
  | .wra2 _ => "WRA2"
  | .wrd _ => "WRD"
  | .rd _ => "RD"
  | .texp0 => "TEXP0"
  | .texp1 => "TEXP1"
  | .tick => "TICK"
  | .peakclr => "PEAKCLR"
  | .reset => "RESET"
  | .test _ => "TEST"
  | .timer1 _ => "TIMER1"
  | .timer2 _ => "TIMER2"
  | .tctl _ _ _ _ _ => "TCTL"
  | .mode _ _ => "MODE"
  | .fourop _ => "FOUROP"
  | .newmode _ => "NEWMODE"
  | .rhythm _ _ _ _ _ _ _ _ => "RHYTHM"
  | .opchar _ _ _ _ _ _ => "OPCHAR"
  | .oplevel _ _ _ => "OPLEVEL"
  | .opad _ _ _ => "OPAD"
  | .opsr _ _ _ => "OPSR"
  | .opwave _ _ => "OPWAVE"
  | .fnlo _ _ => "FNLO"
  | .konblk _ _ _ _ => "KONBLK"
  | .fbcon _ _ _ _ _ => "FBCON"

/-- No word is covered by two format-R rows: somewhere both masks look, the matches differ. -/
def disjointRows (a b : OpcodeRow) : Bool :=
  match a.format, b.format with
  | .r m b, .r m' b' => m &&& m' &&& (b ^^^ b') != 0
  | .p _ _, .p _ _ => false
  | .p _ _, .r _ _ => false
  | .p _ _, .e _ => false
  | .r _ _, .p _ _ => false
  | .r _ _, .e _ => false
  | .e _, .p _ _ => false
  | .e _, .r _ _ => false
  | .e _, .e _ => false

/-- The format-R rows are pairwise disjoint (30_encoding.md R114). -/
theorem regRows_disjoint : regRows.Pairwise fun a b => disjointRows a b = true := by decide

/-- A row whose mask and match are 0 on the data byte. -/
def OpcodeRow.addressOnly (r : OpcodeRow) : Bool :=
  match r.format with
  | .r m b => m == m.extractLsb' 8 9 ++ 0#8 && b == b.extractLsb' 8 9 ++ 0#8
  | .p _ _ => false
  | .e _ => false

/-- Every format-R row looks at the nine address bits only. -/
theorem regRows_address : ∀ r ∈ regRows, r.addressOnly = true := by decide

/-- The mask and the match of a row that looks at the address only. -/
theorem addressOnly_spec {r : OpcodeRow} (h : r.addressOnly = true) :
    ∃ m b : BitVec 9, r.format = .r (m ++ 0#8) (b ++ 0#8) := by
  unfold OpcodeRow.addressOnly at h
  split at h
  · next m b e =>
    rw [Bool.and_eq_true, beq_iff_eq, beq_iff_eq] at h
    exact ⟨_, _, by rw [e]; exact congr (congrArg _ h.1) h.2⟩
  · cases h
  · cases h

/-- Whether a row whose mask and match look at the address only covers a word is a matter of the address. -/
theorem masked_word (a m b : BitVec 9) (v : Byte) : ((a ++ v) &&& (m ++ 0#8) == b ++ 0#8) = (a &&& m == b) := by
  rw [BitVec.and_append, BitVec.and_zero]
  rw [Bool.eq_iff_iff, beq_iff_eq, beq_iff_eq]
  constructor
  · intro h
    apply BitVec.eq_of_getLsbD_eq
    intro i hi
    have h := congrArg (fun w => w.getLsbD (i + 8)) h
    rw [BitVec.getLsbD_append, BitVec.getLsbD_append] at h
    have k : ¬i + 8 < 8 := by omega
    simpa [k] using h
  · intro h; rw [h]

/-- A format-R row covers a word by its address alone. -/
theorem covers_address {r : OpcodeRow} (hr : r ∈ regRows) (a : BitVec 9) (v w : Byte) :
    r.covers (.r (a ++ v)) = r.covers (.r (a ++ w)) := by
  obtain ⟨m, b, h⟩ := addressOnly_spec (regRows_address r hr)
  simp only [OpcodeRow.covers, h, masked_word]

end Sys2Proof.Laws
end

