-- ==== Sys2Proof/Laws/PerInstr.lean ====
section
/-! SUPPORT. The family `Encodes`: the encoding of an instruction lies in a row of the opcode table that carries its
mnemonic and exists in its variant. -/

namespace Sys2Proof.Laws.Encodes

open Sys2Proof Sys2Proof.Laws

/-- In every variant that has the instruction, a row of that variant with its mnemonic covers its encoding. -/
def Statement (i : Instr) : Prop :=
  ∀ x : Variant, i.wf x = true →
    ∃ r ∈ opcodeRows, r.mnemonic = mnemonicOf i ∧ r.inVariant x = true ∧ r.covers (encode i) = true

/-- The row of a location in a variant, looked for with a data byte of zeros. -/
def hasRow (x : Variant) (mn : String) (l : Loc) : Bool :=
  regRows.any fun r => r.mnemonic == mn && r.inVariant x && r.covers (.r (regWord l 0#8))

/-- A location that has a row has it whatever the data byte. -/
theorem of_hasRow {x : Variant} {mn : String} {l : Loc} (h : hasRow x mn l = true) (v : Byte) :
    ∃ r ∈ opcodeRows, r.mnemonic = mn ∧ r.inVariant x = true ∧ r.covers (.r (regWord l v)) = true := by
  obtain ⟨r, hr, h⟩ := List.any_eq_true.mp h
  rw [Bool.and_eq_true, Bool.and_eq_true, beq_iff_eq] at h
  exact ⟨r, List.mem_append_right _ hr, h.1.1, h.1.2, by rw [regWord, covers_address hr _ v 0#8]; exact h.2⟩

/-- The row of a port word in a variant, looked for with a data byte of zeros. -/
def hasPortRow (x : Variant) (mn : String) (k : BitVec 3) : Bool :=
  portRows.any fun r => r.mnemonic == mn && r.inVariant x && match r.format with
    | .p m b => m == m.extractLsb' 8 3 ++ 0#8 && b == b.extractLsb' 8 3 ++ 0#8 && k &&& m.extractLsb' 8 3 == b.extractLsb' 8 3
    | .r _ _ => false
    | .e _ => false

/-- A port word that has a row has it whatever the data byte. -/
theorem of_hasPortRow {x : Variant} {mn : String} {k : BitVec 3} (h : hasPortRow x mn k = true) (v : Byte) :
    ∃ r ∈ opcodeRows, r.mnemonic = mn ∧ r.inVariant x = true ∧ r.covers (.p (k ++ v)) = true := by
  obtain ⟨r, hr, h⟩ := List.any_eq_true.mp h
  rw [Bool.and_eq_true, Bool.and_eq_true, beq_iff_eq] at h
  refine ⟨r, List.mem_append_left _ hr, h.1.1, h.1.2, ?_⟩
  have h := h.2
  cases hf : r.format with
  | p m b =>
    simp only [hf, Bool.and_eq_true, beq_iff_eq] at h
    simp only [OpcodeRow.covers, hf, beq_iff_eq]
    rw [h.1.1, BitVec.and_append, BitVec.and_zero, h.2]
    exact h.1.2.symm
  | r _ _ => simp only [hf] at h; cases h
  | e _ => simp only [hf] at h; cases h

/-- A property of the channels a variant has. -/
def forChans (x : Variant) (p : Chan → Bool) : Bool := allChans.all fun c => !chanExists x c || p c

theorem of_forChans {x : Variant} {p : Chan → Bool} (h : forChans x p = true) {c : Chan}
    (hc : chanExists x c = true) : p c = true := by
  have m : c ∈ allChans := by
    have : ∀ c : Chan, c ∈ allChans := by decide
    exact this c
  have := List.all_eq_true.mp h c m
  simpa [hc] using this

/-- Every operator register of a group has a row of its mnemonic in each variant that has the operator. -/
theorem of_group {mn : String} {g : OpReg}
    (h : ∀ x, forChans x (fun c => hasRow x mn (.opReg g ⟨c, .one⟩) && hasRow x mn (.opReg g ⟨c, .two⟩)) = true)
    {x : Variant} {o : OpRef} (ho : chanExists x o.ch = true) : hasRow x mn (.opReg g o) = true := by
  have k := of_forChans (h x) ho
  rw [Bool.and_eq_true] at k
  rcases o with ⟨c, sl⟩
  cases sl
  · exact k.1
  · exact k.2

theorem rows_wra : ∀ x, hasPortRow x "WRA" 0 = true := by intro x; cases x <;> decide
theorem rows_wrd : ∀ x, hasPortRow x "WRD" 1 = true := by intro x; cases x <;> decide
theorem rows_rd : ∀ x, ∀ p : BitVec 2, hasPortRow x "RD" (1#1 ++ p) = true := by intro x; cases x <;> decide
theorem rows_test : ∀ x, hasRow x "TEST" .test = true := by intro x; cases x <;> decide
theorem rows_timer1 : ∀ x, hasRow x "TIMER1" .timer1 = true := by intro x; cases x <;> decide
theorem rows_timer2 : ∀ x, hasRow x "TIMER2" .timer2 = true := by intro x; cases x <;> decide
theorem rows_tctl : ∀ x, hasRow x "TCTL" .tctl = true := by intro x; cases x <;> decide
theorem rows_mode : ∀ x, hasRow x "MODE" .mode = true := by intro x; cases x <;> decide
theorem rows_rhythm : ∀ x, hasRow x "RHYTHM" .rhythm = true := by intro x; cases x <;> decide

theorem rows_opchar : ∀ x, forChans x (fun c =>
    hasRow x "OPCHAR" (.opReg .opchar ⟨c, .one⟩) && hasRow x "OPCHAR" (.opReg .opchar ⟨c, .two⟩)) = true := by
  intro x; cases x <;> decide
theorem rows_oplevel : ∀ x, forChans x (fun c =>
    hasRow x "OPLEVEL" (.opReg .oplevel ⟨c, .one⟩) && hasRow x "OPLEVEL" (.opReg .oplevel ⟨c, .two⟩)) = true := by
  intro x; cases x <;> decide
theorem rows_opad : ∀ x, forChans x (fun c =>
    hasRow x "OPAD" (.opReg .opad ⟨c, .one⟩) && hasRow x "OPAD" (.opReg .opad ⟨c, .two⟩)) = true := by
  intro x; cases x <;> decide
theorem rows_opsr : ∀ x, forChans x (fun c =>
    hasRow x "OPSR" (.opReg .opsr ⟨c, .one⟩) && hasRow x "OPSR" (.opReg .opsr ⟨c, .two⟩)) = true := by
  intro x; cases x <;> decide
theorem rows_opwave : ∀ x, forChans x (fun c =>
    hasRow x "OPWAVE" (.opReg .opwave ⟨c, .one⟩) && hasRow x "OPWAVE" (.opReg .opwave ⟨c, .two⟩)) = true := by
  intro x; cases x <;> decide
theorem rows_fnlo : ∀ x, forChans x (fun c => hasRow x "FNLO" (.fnlo c)) = true := by intro x; cases x <;> decide
theorem rows_konblk : ∀ x, forChans x (fun c => hasRow x "KONBLK" (.konblk c)) = true := by
  intro x; cases x <;> decide
theorem rows_fbcon : ∀ x, forChans x (fun c => hasRow x "FBCON" (.fbcon c)) = true := by intro x; cases x <;> decide

/-! ### One lemma for each constructor -/

theorem wra (v : Byte) : Statement (.wra v) := fun x _ => of_hasPortRow (rows_wra x) v

theorem wra2 (v : Byte) : Statement (.wra2 v) := fun x h => by
  cases x
  · cases h
  · exact of_hasPortRow (mn := "WRA2") (k := 0b010#3) (by decide) v

theorem wrd (v : Byte) : Statement (.wrd v) := fun x _ => of_hasPortRow (rows_wrd x) v

theorem rd (p : BitVec 2) : Statement (.rd p) := fun x _ => of_hasPortRow (rows_rd x p) 0#8

theorem texp0 : Statement .texp0 := fun x _ => by cases x <;> decide
theorem texp1 : Statement .texp1 := fun x _ => by cases x <;> decide
theorem tick : Statement .tick := fun x _ => by cases x <;> decide
theorem peakclr : Statement .peakclr := fun x _ => by cases x <;> decide
theorem reset : Statement .reset := fun x _ => by cases x <;> decide

theorem test (wse : Bool) : Statement (.test wse) := fun x _ => of_hasRow (rows_test x) _
theorem timer1 (t1 : Byte) : Statement (.timer1 t1) := fun x _ => of_hasRow (rows_timer1 x) _
theorem timer2 (t2 : Byte) : Statement (.timer2 t2) := fun x _ => of_hasRow (rows_timer2 x) _

theorem tctl (rst mt1 mt2 st2 st1 : Bool) : Statement (.tctl rst mt1 mt2 st2 st1) :=
  fun x _ => of_hasRow (rows_tctl x) _

theorem mode (csm nts : Bool) : Statement (.mode csm nts) := fun x _ => of_hasRow (rows_mode x) _

theorem fourop (ext : BitVec 6) : Statement (.fourop ext) := fun x h => by
  cases x
  · cases h
  · exact of_hasRow (mn := "FOUROP") (l := .fourop) (by decide) _

theorem newmode (new : Bool) : Statement (.newmode new) := fun x h => by
  cases x
  · cases h
  · exact of_hasRow (mn := "NEWMODE") (l := .newmode) (by decide) _

theorem rhythm (dam dvb rhy bd sd tom tc hh : Bool) : Statement (.rhythm dam dvb rhy bd sd tom tc hh) :=
  fun x _ => of_hasRow (rows_rhythm x) _

theorem opchar (o : OpRef) (am vib egt ksr : Bool) (mult : BitVec 4) : Statement (.opchar o am vib egt ksr mult) :=
  fun _ h => of_hasRow (of_group rows_opchar h) _

theorem oplevel (o : OpRef) (ksl : BitVec 2) (tl : BitVec 6) : Statement (.oplevel o ksl tl) :=
  fun _ h => of_hasRow (of_group rows_oplevel h) _

theorem opad (o : OpRef) (ar dr : BitVec 4) : Statement (.opad o ar dr) :=
  fun _ h => of_hasRow (of_group rows_opad h) _

theorem opsr (o : OpRef) (sl rr : BitVec 4) : Statement (.opsr o sl rr) :=
  fun _ h => of_hasRow (of_group rows_opsr h) _

theorem opwave (o : OpRef) (ws : BitVec 3) : Statement (.opwave o ws) :=
  fun _ h => of_hasRow (of_group rows_opwave h) _

theorem fnlo (c : Chan) (lo : Byte) : Statement (.fnlo c lo) :=
  fun x h => of_hasRow (of_forChans (rows_fnlo x) h) _

theorem konblk (c : Chan) (kon : Bool) (block : BitVec 3) (hi : BitVec 2) : Statement (.konblk c kon block hi) :=
  fun x h => of_hasRow (of_forChans (rows_konblk x) h) _

theorem fbcon (c : Chan) (chb cha : Bool) (fb : BitVec 3) (con : Bool) : Statement (.fbcon c chb cha fb con) :=
  fun x h => of_hasRow (of_forChans (rows_fbcon x) h) _

end Sys2Proof.Laws.Encodes
end

