-- ==== Sys2Proof/Laws/Sample.lean ====
section
/-! SUPPORT. What steps 2 to 4 of a tick can do: they write the buses and the feedback cells of Slot 1, and what they read
they do not write, so that the output of an operator is the same before and after another channel's contribution
(48_sample_tick.md R344). -/

namespace Sys2Proof.Machine

/-- Only buses and feedback cells of Slot 1 may differ. -/
structure BusFrame (s t : State) : Prop where
  same : t = { s with chans := t.chans }
  chan : ∀ c, t.chan c = { s.chan c with
    chanout := (t.chan c).chanout
    slot1 := { (s.chan c).slot1 with fb0 := (t.chan c).slot1.fb0, fb1 := (t.chan c).slot1.fb1 } }

theorem BusFrame.refl (s : State) : BusFrame s s := ⟨rfl, fun _ => rfl⟩

theorem BusFrame.trans {s t u : State} (h : BusFrame s t) (k : BusFrame t u) : BusFrame s u where
  same := by rw [k.same, h.same]
  chan c := by
    have a := h.chan c
    have b := k.chan c
    rw [b, a]

/-- An update of one channel that only writes what a bus frame allows. -/
theorem BusFrame.updChan (s : State) (c : Chan) (f : Channel → Channel)
    (h : f (s.chan c) = { s.chan c with
      chanout := (f (s.chan c)).chanout
      slot1 := { (s.chan c).slot1 with fb0 := (f (s.chan c)).slot1.fb0, fb1 := (f (s.chan c)).slot1.fb1 } }) :
    BusFrame s (s.updChan c f) where
  same := by unfold State.updChan; split <;> rfl
  chan d := by
    rw [updChan_chan]
    split
    · next e => rw [e.1, h]
    · rfl

theorem BusFrame.addOut (s : State) (c : Chan) (x : Int) : BusFrame s (addOut s c x) := BusFrame.updChan s c _ rfl

theorem BusFrame.slot1 (s : State) (c : Chan) : BusFrame s (slot1 s c).1 := by
  unfold Machine.slot1 State.updOp
  dsimp only
  refine BusFrame.updChan s c _ ?_
  rfl

theorem BusFrame.cfg {s t : State} (h : BusFrame s t) : t.cfg = s.cfg := by rw [h.same]
theorem BusFrame.glob {s t : State} (h : BusFrame s t) : t.glob = s.glob := by rw [h.same]
theorem BusFrame.gens {s t : State} (h : BusFrame s t) : t.gens = s.gens := by rw [h.same]

/-- The fields of an operator that the output of an operator reads stay. -/
theorem BusFrame.op {s t : State} (h : BusFrame s t) (o : OpRef) :
    t.op o = { s.op o with fb0 := (t.op o).fb0, fb1 := (t.op o).fb1 } := by
  rcases o with ⟨c, sl⟩
  have e := h.chan c
  cases sl
  · exact congrArg Channel.slot1 e
  · have e2 := congrArg Channel.slot2 e
    simp only [State.op, Channel.op] at *
    rw [e2]

theorem BusFrame.hasChan {s t : State} (h : BusFrame s t) (c : Chan) : t.hasChan c = s.hasChan c := by
  unfold State.hasChan; rw [h.cfg]

theorem BusFrame.isMaster {s t : State} (h : BusFrame s t) (c : Chan) : isMaster t c = isMaster s c := by
  unfold Machine.isMaster extOf; rw [h.cfg, h.glob]

theorem BusFrame.isSlave {s t : State} (h : BusFrame s t) (c : Chan) : isSlave t c = isSlave s c := by
  unfold Machine.isSlave; split
  · exact h.isMaster _
  · rfl

theorem BusFrame.role {s t : State} (h : BusFrame s t) (c : Chan) : role t c = role s c := by
  unfold Machine.role; rw [h.glob, h.isMaster, h.isSlave]

theorem BusFrame.con {s t : State} (h : BusFrame s t) (c : Chan) : (t.chan c).con = (s.chan c).con := by
  rw [h.chan c]

theorem BusFrame.fb {s t : State} (h : BusFrame s t) (c : Chan) : (t.chan c).fb = (s.chan c).fb := by
  rw [h.chan c]

theorem BusFrame.blockFnum {s t : State} (h : BusFrame s t) (c : Chan) : blockFnum t c = blockFnum s c := by
  have e : fsrc t c = fsrc s c := by
    unfold fsrc; split
    · rw [h.isMaster]
    · rfl
  unfold Machine.blockFnum; rw [e, h.chan]

theorem BusFrame.tll {s t : State} (h : BusFrame s t) (o : OpRef) : tll t o = tll s o := by
  unfold Machine.tll; rw [h.op o, h.blockFnum, h.cfg]

theorem BusFrame.lfoAm {s t : State} (h : BusFrame s t) : lfoAm t = lfoAm s := by
  unfold Machine.lfoAm; rw [h.cfg, h.glob, h.gens]

theorem BusFrame.env {s t : State} (h : BusFrame s t) (o : OpRef) : env t o = env s o := by
  unfold Machine.env; rw [h.tll, h.lfoAm, h.op o]

theorem BusFrame.index {s t : State} (h : BusFrame s t) (o : OpRef) : (t.op o).index = (s.op o).index := by
  rw [h.op o]; rfl

/-- The output of an operator at a phase index does not depend on buses and feedback cells. -/
theorem BusFrame.opAt {s t : State} (h : BusFrame s t) (o : OpRef) (x : Int) : opAt t o x = opAt s o x := by
  unfold Machine.opAt audible opOut; rw [h.env, h.cfg, h.op o]

/-- Nor does `SlotN`. -/
theorem BusFrame.slotN {s t : State} (h : BusFrame s t) (o : OpRef) (pm : Int) : slotN t o pm = slotN s o pm := by
  unfold Machine.slotN; rw [h.opAt, h.index]

/-! ### The router stays in the frame -/

theorem BusFrame.chan2Op (s : State) (c : Chan) : BusFrame s (chan2Op s c) := by
  unfold Machine.chan2Op
  dsimp only
  split
  · exact (BusFrame.slot1 s c).trans ((BusFrame.addOut _ _ _).trans (BusFrame.addOut _ _ _))
  · exact (BusFrame.slot1 s c).trans (BusFrame.addOut _ _ _)

theorem BusFrame.chan4Op (s : State) (c : Chan) : BusFrame s (chan4Op s c) := by
  unfold Machine.chan4Op
  dsimp only
  refine (BusFrame.slot1 s c).trans ?_
  split
  · exact BusFrame.addOut _ _ _
  · exact (BusFrame.addOut _ _ _).trans (BusFrame.addOut _ _ _)
  · exact (BusFrame.addOut _ _ _).trans (BusFrame.addOut _ _ _)
  · exact ((BusFrame.addOut _ _ _).trans (BusFrame.addOut _ _ _)).trans (BusFrame.addOut _ _ _)

theorem BusFrame.bassDrum (s : State) : BusFrame s (bassDrum s) := (BusFrame.slot1 s 6).trans (BusFrame.addOut _ _ _)

theorem BusFrame.rhythmStep (s : State) : BusFrame s (rhythmStep s) :=
  ((((BusFrame.bassDrum s).trans (BusFrame.addOut _ _ _)).trans (BusFrame.addOut _ _ _)).trans
    (BusFrame.addOut _ _ _)).trans (BusFrame.addOut _ _ _)

/-- The contribution of a channel writes buses and feedback cells of Slot 1 only. -/
theorem BusFrame.chanStep (s : State) (c : Chan) : BusFrame s (chanStep s c) := by
  unfold Machine.chanStep
  split
  · split
    · exact BusFrame.rhythmStep s
    · exact BusFrame.refl s
  · exact BusFrame.chan4Op s c
  · exact BusFrame.refl s
  · exact BusFrame.chan2Op s c

theorem BusFrame.foldl (l : List Chan) (s : State) : BusFrame s (l.foldl Machine.chanStep s) := by
  induction l generalizing s with
  | nil => exact BusFrame.refl s
  | cons c l ih => exact (BusFrame.chanStep s c).trans (ih _)

/-- Step 3 writes buses and feedback cells of Slot 1 only. -/
theorem BusFrame.channelsStep (s : State) : BusFrame s (channelsStep s) := BusFrame.foldl _ s

theorem BusFrame.clearOut (s : State) : BusFrame s (clearOut s) where
  same := by unfold Machine.clearOut State.mapChans; rfl
  chan c := by
    unfold Machine.clearOut
    rw [mapChans_chan]
    split <;> rfl

/-! ### Step 4 -/

/-- The mix writes the two outputs only. -/
theorem mixStep_frame (s : State) : mixStep s = { s with mixL := (mixStep s).mixL, mixR := (mixStep s).mixR } := by
  unfold mixStep; split <;> rfl

@[simp] theorem mixStep_chan (s : State) (c : Chan) : (mixStep s).chan c = s.chan c := by
  rw [mixStep_frame]; rfl

end Sys2Proof.Machine
end

