-- ==== Sys2Proof/Tests/Slice0.lean ====
section
/-! SUPPORT. The model's own tests: the well-formedness checks refuse what each is there to refuse, one written-out word for
every constructor decodes, small steps with the results that the examples of spec/ state, and for every statement of
Obligations.lean that has hypotheses a state and operands that meet them. -/

namespace Sys2Proof.Tests

open Sys2Proof Sys2Proof.Machine

/-! ### Well-formedness: an ill-formed instruction for each check -/

theorem smoke_wra2_v1 : Instr.wf .v1 (.wra2 0x05) = false := by decide
theorem smoke_fourop_v1 : Instr.wf .v1 (.fourop 0x3F) = false := by decide
theorem smoke_newmode_v1 : Instr.wf .v1 (.newmode true) = false := by decide
theorem smoke_opchar_v1 : Instr.wf .v1 (.opchar ⟨9, .one⟩ true false false false 1) = false := by decide
theorem smoke_oplevel_v1 : Instr.wf .v1 (.oplevel ⟨9, .two⟩ 1 2) = false := by decide
theorem smoke_opad_v1 : Instr.wf .v1 (.opad ⟨17, .one⟩ 15 0) = false := by decide
theorem smoke_opsr_v1 : Instr.wf .v1 (.opsr ⟨17, .two⟩ 15 0) = false := by decide
theorem smoke_opwave_v1 : Instr.wf .v1 (.opwave ⟨10, .one⟩ 3) = false := by decide
theorem smoke_fnlo_v1 : Instr.wf .v1 (.fnlo 9 0x44) = false := by decide
theorem smoke_konblk_v1 : Instr.wf .v1 (.konblk 9 true 4 2) = false := by decide
theorem smoke_fbcon_v1 : Instr.wf .v1 (.fbcon 17 true true 7 true) = false := by decide

/-! ### Decoding: words written out from 30_encoding.md R102 to R106, bank, register number, data byte -/

theorem decodes_wra : decodeP .v1 0b000_00101100#11 = .wra 0x2C := by decide
theorem decodes_wra2 : decodeP .v2 0b010_00000101#11 = .wra2 0x05 := by decide
theorem decodes_wra2_v1 : decodeP .v1 0b010_00000101#11 = .wra 0x05 := by decide
theorem decodes_wrd : decodeP .v2 0b001_00100010#11 = .wrd 0x22 := by decide
theorem decodes_wrd_port3 : decodeP .v2 0b011_00100010#11 = .wrd 0x22 := by decide
theorem decodes_rd : decodeP .v2 0b110_00000000#11 = .rd 2 := by decide
theorem decodes_events :
    [HostEvent.texp0, .texp1, .tick, .peakclr, .reset].map decodeE = [.texp0, .texp1, .tick, .peakclr, .reset] := by decide
theorem decodes_test : (decodeR .v1 0b0_00000001_00100000#17).toOption = some (.test true) := by decide
theorem decodes_timer1 : (decodeR .v1 0b0_00000010_11110000#17).toOption = some (.timer1 0xF0) := by decide
theorem decodes_timer2 : (decodeR .v1 0b0_00000011_10000000#17).toOption = some (.timer2 0x80) := by decide
theorem decodes_tctl :
    (decodeR .v1 0b0_00000100_01000001#17).toOption = some (.tctl false true false false true) := by decide
theorem decodes_mode : (decodeR .v1 0b0_00001000_10000000#17).toOption = some (.mode true false) := by decide
theorem decodes_fourop : (decodeR .v2 0b1_00000100_11000001#17).toOption = some (.fourop 0x01) := by decide
theorem decodes_newmode : (decodeR .v2 0b1_00000101_11111111#17).toOption = some (.newmode true) := by decide
theorem decodes_rhythm : (decodeR .v1 0b0_10111101_00110001#17).toOption =
    some (.rhythm false false true true false false false true) := by decide
/-- `OPCHAR 4.2, EGT=1, MULT=2` (30_encoding.md R113). -/
theorem decodes_opchar : (decodeR .v1 0b0_00101100_00100010#17).toOption =
    some (.opchar ⟨4, .two⟩ false false true false 2) := by decide
theorem decodes_oplevel : (decodeR .v1 0b0_01010101_10011010#17).toOption = some (.oplevel ⟨8, .two⟩ 2 26) := by decide
theorem decodes_opad : (decodeR .v1 0b0_01101010_11000101#17).toOption = some (.opad ⟨5, .one⟩ 12 5) := by decide
theorem decodes_opsr : (decodeR .v1 0b0_10010010_01111110#17).toOption = some (.opsr ⟨8, .one⟩ 7 14) := by decide
theorem decodes_opwave : (decodeR .v2 0b1_11100101_00000111#17).toOption = some (.opwave ⟨11, .two⟩ 7) := by decide
/-- `FNLO 10, FNUM=0x244` and `KONBLK 10, KON=1, BLOCK=4, FNUM=0x244` (30_encoding.md R113). -/
theorem decodes_fnlo : (decodeR .v2 0b1_10100001_01000100#17).toOption = some (.fnlo 10 0x44) := by decide
theorem decodes_konblk : (decodeR .v2 0b1_10110001_00110010#17).toOption = some (.konblk 10 true 4 2) := by decide
theorem decodes_fbcon :
    (decodeR .v2 0b0_11000000_00011111#17).toOption = some (.fbcon 0 false true 7 true) := by decide
theorem decodes_fbcon_second_place :
    (decodeR .v2 0b0_11011000_00011111#17).toOption = some (.fbcon 8 false true 7 true) := by decide
theorem decodes_hole : (decodeR .v2 0b0_00100110_11111111#17).toOption = none := by decide
theorem decodes_table_word : decodeTableWord 24 0x1B132 = some (.konblk 10 true 4 2) := by decide
/-- The table of 30_encoding.md R104, in both banks. -/
theorem decodes_offsets : ∀ (bank : Bool) (off : BitVec 5),
    (opOfOffset bank off).map (fun o => (o.ch.val, o.slot)) =
      (slotOfOffset.lookup off.toNat).map fun cs => (cs.1 + (if bank then 9 else 0), cs.2) := by decide

/-! ### Small steps -/

/-- V1 right after reset. -/
def one : State := State.resetOf (stdConfig .v1)

/-- V2 right after reset. -/
def two : State := State.resetOf (stdConfig .v2)

/-- The state after some instructions. -/
def after (s : State) (is : List Instr) : State :=
  is.foldl (fun s i => match exec i s with | .next t => t | .fault _ => s | .refused _ => s) s

/-- The state after some commands, each issued and stepped. -/
def issue (s : State) (cs : List Command) : State :=
  cs.foldl (fun s c => match step { s with input := [c] } with | .next t => t | .fault _ => s | .refused _ => s) s

/-- Examples of 47_register_writes.md R285. -/
theorem test_wra : (after two [.wra 0x23]).addr = 0x023 := by decide
theorem test_wra2 : ((after two [.wra2 0x23]).addr, (after two [.wra2 0x05]).addr) = (0x023#9, 0x105#9) := by decide
theorem test_wra2_new : (after two [.newmode true, .wra2 0x23]).addr = 0x123 := by decide
/-- Example of R286. -/
theorem test_wrd : ((after one [.wra 0x40, .wrd 0x3F]).op ⟨0, .one⟩).tl = 63 := by decide
theorem test_wrd_again : ((after one [.wra 0x40, .wrd 0x3F, .wrd 0x00]).op ⟨0, .one⟩).tl = 0 := by decide
/-- Example of 60_exceptions.md R363. -/
theorem test_rd : ((after two [.texp0, .rd 0]).out.result, (after two [.texp0, .rd 2]).out.result) =
    (.byte 0xC0, .byte 0x00) := by decide
theorem test_rd_v1 : ((after one [.texp0, .rd 2]).out.result, (after one [.texp0, .rd 3]).out.result) =
    (.byte 0xC0, .byte 0x00) := by decide
/-- Examples of R369. -/
theorem test_texp0 : (after one [.timer1 0xF0, .tctl false false false false true, .texp0]).out =
    { result := .irq true, events := [.irqChanged true, .timerReload 0 64] } := by decide
theorem test_texp0_masked : (after one [.timer1 0xF0, .tctl false true false false true, .texp0]).out =
    { result := .irq false, events := [.timerReload 0 64] } := by decide
theorem test_texp1 : (after one [.timer2 0x80, .texp1]).status = 0xA0 := by decide
theorem test_texp1_reload : (after one [.timer2 0x80, .texp1]).out.events = [.irqChanged true, .timerReload 1 2048] := by
  decide
/-- Example of 48_sample_tick.md R341. -/
theorem test_tick : (after one [.tick]).gens =
    { lfoAmCnt := 0x40000, lfoPmCnt := 0x4000, noiseRng := 0x400181, noiseP := 0, egCnt := 1, egTimer := 0 } := by decide
/-- 48_sample_tick.md R353 with 43_operator_output.md R219: with instant attack the second tick is at `vol = 0`, and a code
of 0 keeps the index at 0, where a sine outputs 12. -/
theorem test_tick_sounds : ((after two [.opad ⟨0, .two⟩ 15 0, .konblk 0 true 0 0, .tick, .tick]).chan 0).chanout = 12 := by
  decide
theorem test_peakclr : ((after two [.opad ⟨0, .two⟩ 15 0, .konblk 0 true 0 0, .tick, .tick, .peakclr]).chan 0).peak = 0 := by
  decide
/-- 70_reset_and_hazards.md R400. -/
theorem test_reset : (after one [.tctl false false false true true, .texp0, .reset]).out.events =
    [.irqChanged false, .timerReload 1 0, .timerReload 0 0] := by decide
theorem test_reset_vol : ((after two [.konblk 17 true 4 2, .tick, .reset]).op ⟨17, .one⟩).phase = .off := by decide
/-- Examples of R287 to R304, through the ports. -/
theorem test_test : ((issue one (traceW 0x01 0x20)).glob.wse, (issue two (traceW 0x01 0x20)).glob.wse) = (true, false) := by
  decide
theorem test_timer1 : (issue one (traceW 0x02 0xF0)).glob.t1 = 0xF0 := by decide
theorem test_timer2 : (issue one (traceW 0x03 0x80)).glob.t2 = 0x80 := by decide
theorem test_tctl : (issue one (traceW 0x02 0xF0 ++ traceW 0x03 0x80 ++ traceW 0x04 0x03)).out.events =
    [.timerReload 1 2048, .timerReload 0 64] := by decide
theorem test_tctl_reset : (issue (after one [.texp0, .texp1]) (traceW 0x04 0x80)).out =
    { result := .irq false, events := [.irqChanged false] } := by decide
theorem test_mode : ((issue one (traceW 0x08 0x80)).glob.csm, (issue two (traceW 0x08 0x80)).glob.csm) = (true, false) := by
  decide
theorem test_fourop : (let s := issue two (traceW 0x105 0x01 ++ traceW 0x104 0x01)
    (isMaster s 0, isSlave s 3, isMaster s 1)) = (true, true, false) := by decide
theorem test_newmode : (issue two (traceW 0x105 0xFE)).glob.new = false := by decide
theorem test_rhythm : (let s := issue one (traceW 0xBD 0x31)
    ((s.op ⟨6, .two⟩).key, (s.op ⟨7, .one⟩).phase, (s.op ⟨7, .two⟩).key)) = (2#3, .att, 0#3) := by decide
theorem test_opchar : ((issue one (traceW 0x20 0xFF)).op ⟨0, .one⟩).mult = 15 := by decide
theorem test_oplevel : (((issue one (traceW 0x55 0x9A)).op ⟨8, .two⟩).ksl,
    ((issue one (traceW 0x55 0x9A)).op ⟨8, .two⟩).tl) = (2#2, 26#6) := by decide
theorem test_opad : (((issue one (traceW 0x6A 0xC5)).op ⟨5, .one⟩).ar,
    ((issue one (traceW 0x6A 0xC5)).op ⟨5, .one⟩).dr) = (12#4, 5#4) := by decide
theorem test_opsr : (((issue one (traceW 0x92 0x7E)).op ⟨8, .one⟩).sl,
    ((issue one (traceW 0x92 0x7E)).op ⟨8, .one⟩).rr) = (7#4, 14#4) := by decide
theorem test_opwave_v1 : (((issue one (traceW 0xE0 0x07)).op ⟨0, .one⟩).wave,
    ((issue one (traceW 0x01 0x20 ++ traceW 0xE0 0x07)).op ⟨0, .one⟩).wave) = (0#3, 3#3) := by decide
theorem test_opwave_v2 : (((issue two (traceW 0xE0 0x07)).op ⟨0, .one⟩).wsReg,
    ((issue two (traceW 0xE0 0x07)).op ⟨0, .one⟩).wave) = (7#3, 3#3) := by decide
theorem test_fnlo : ((after one [.konblk 3 false 0 2, .fnlo 3 0xAB, .fnlo 3 0x01]).chan 3).fnum = 0x201 := by decide
theorem test_konblk : (let s := issue (after one [.konblk 3 false 0 2, .fnlo 3 0x01]) (traceW 0xB3 0xFF)
    ((s.chan 3).fnum, (s.chan 3).block, (s.op ⟨3, .two⟩).phase)) = (0x301#10, 7#3, .att) := by decide
theorem test_fbcon : (let s := issue two (traceW 0x105 0x01 ++ traceW 0xC0 0x1F)
    ((s.chan 0).fb, (s.chan 0).con, (s.chan 0).panL, (s.chan 0).panR)) = (7#3, true, true, false) := by decide
theorem test_fbcon_compatible : ((issue two (traceW 0xC0 0x0F)).chan 0).panR = true := by decide
/-- The worked values of 43_operator_output.md R219 and of 45_rhythm.md R261. -/
theorem test_expOut : [0, 1, 2, 510, 511, 512, 513, 4274, 6142, 6143, 6144, 6655, 6656].map (expOut (stdConfig .v2)) =
    [4084, -4084, 4074, 2048, -2048, 2042, -2042, 12, 1, -1, 0, 0, 0] := by decide
theorem test_rhythm_indices : (highHatIndex 0x1A4 0x028 false, snareIndex 0x1A4 true, cymbalIndex 0x008 0,
    highHatIndex 0x008 0 true, snareIndex 0x008 true) = (0x0D0, 0x300, 0x300, 0x2D0, 0x000) := by decide
/-- The table of 40_tables.md R142, and its last sentence for V1. -/
theorem test_wave : (stdTables .v2).wave.map (fun t => [0, 1, 255, 256, 511, 512, 513, 767, 768, 1023].map (rows16 t)) =
    [[4274, 3462, 0, 0, 4274, 4275, 3463, 1, 1, 4275],
     [4274, 3462, 0, 0, 4274, 6656, 6656, 6656, 6656, 6656],
     [4274, 3462, 0, 0, 4274, 4274, 3462, 0, 0, 4274],
     [4274, 3462, 0, 6656, 6656, 4274, 3462, 0, 6656, 6656],
     [4274, 3086, 3462, 4275, 3463, 6656, 6656, 6656, 6656, 6656],
     [4274, 3086, 3462, 4274, 3462, 6656, 6656, 6656, 6656, 6656],
     [0, 0, 0, 0, 0, 1, 1, 1, 1, 1],
     [0, 16, 4080, 4096, 6656, 6656, 6656, 4097, 4081, 1]] := by decide +kernel
theorem test_wave_v1 : (stdTables .v1).wave.map (fun t => [0, 256, 512, 1023].map (rows16 t)) =
    [[4274, 0, 4275, 4275], [4274, 0, 6144, 6144], [4274, 0, 4274, 4274], [4274, 6144, 4274, 6144]] := by decide +kernel
/-- The printed rows of 40_tables.md R144, R148 and R149 against the formulas those rules give. -/
theorem test_ksl_rows : ∀ k < 128, rows16 kslRowsStd k =
    [0, 32, 40, 45, 48, 51, 53, 55, 56, 58, 59, 60, 61, 62, 63, 64].getD (k % 16) 0 * 4 - (8 - k / 16) * 32 := by
  decide +kernel
theorem test_rate_rows : ∀ r < 96,
    rows16 rateShiftRowsStd r = (if r < 16 then 0 else if r ≤ 67 then 12 - (r - 16) / 4 else 0) ∧
    rows16 rateSelectRowsStd r = (if r < 16 then 14 else if r ≤ 67 then (r - 16) % 4 else if r ≤ 71 then 4 + (r - 16) % 4
      else if r ≤ 75 then 8 + (r - 16) % 4 else 12) := by decide +kernel
/-- 46_lfo_noise.md R280: the noise register at tick 12. -/
theorem test_noise : Nat.repeat noiseStep 11 1 = 0x0FF020 := by decide

/-! ### Hypotheses that can be met -/

theorem meets_DecodeOfEncode : Instr.wf .v1 (.fbcon 8 true false 7 true) = true ∧ Instr.wf .v2 (.opwave ⟨17, .two⟩ 7) = true := by
  decide
theorem meets_DecodedInstructionsExist : decode .v2 (.r 0x10501) = .ok (.newmode true) := rfl
theorem meets_Fields : chanExists .v1 8 = true ∧ chanExists .v2 17 = true := by decide
theorem meets_ReservedLocations :
    reservedByList true 0x00 = true ∧ reservedByList false 0xDF = true ∧ reservedByList false 0x01 = false := by decide
theorem meets_StepRuns_port : Instr.wf two.cfg.variant (.wra2 0x05) = true ∧ encode (.wra2 0x05) = .p 0b010_00000101#11 ∧
    { two with input := [.port 0b010_00000101#11] }.input = .port 0b010_00000101#11 :: [] := by decide
theorem meets_StepRuns_event : encode .tick = .e .tick ∧ { two with input := [.event .tick] }.input = .event .tick :: [] := by
  decide
theorem meets_StepRuns_idle : State.reset.input = [] := by decide
theorem meets_AddressThenData : two.live = true ∧ Instr.wf two.cfg.variant (.newmode true) = true ∧
    encode (.newmode true) = .r 0x10501 ∧ (0x10501#17).getLsbD 16 = true ∧ (0x10501#17).extractLsb' 8 8 = 0x05 ∧
    { two with input := Instr.commands (.newmode true) }.input = Instr.commands (.newmode true) ++ [] := by decide
theorem meets_AddressThenData_new : (after two [.newmode true]).glob.new = true ∧
    encode (.fourop 1) = .r 0x10401 := by decide
theorem meets_DataWrite : one.live = true ∧ (decodeR .v1 (0x0B0#9 ++ 0x3F#8)).toOption = some (.konblk 0 true 7 3) ∧
    (decodeR .v1 (0x0FF#9 ++ 0x3F#8)).toOption = none := by decide
theorem meets_ReservedWrites : one.live = true ∧ variantDefaults one.cfg = true ∧
    (after one [.wra 0xFF]).addr.getLsbD 8 = false ∧
    reservedByList ((after one [.wra 0xFF]).addr.getLsbD 8) ((after one [.wra 0xFF]).addr.extractLsb' 0 8) = true := by decide
theorem meets_ReservedWrites_test : two.live = true ∧ variantDefaults two.cfg = true ∧ two.cfg.variant = .v2 ∧
    (after two [.wra 0x01]).addr = 0x001 := by decide
theorem meets_PortWrites : two.live = true ∧
    ((after two [.texp0, .wra 0x04]).irq = true ∧ (after two [.texp0, .wra 0x04, .wrd 0x80]).irq = false) := by decide
theorem meets_NothingRuns : { two with live := false }.live = false ∧ Instr.tick ≠ .reset := by decide
theorem meets_some_next : ∃ t, exec (.konblk 0 true 4 2) two = .next t := ⟨_, rfl⟩
theorem meets_GlobalWrites : (one.live = true ∧ variantDefaults one.cfg = true) ∧
    two.live = true ∧ variantDefaults two.cfg = true ∧ two.cfg.variant = .v2 := by decide
theorem meets_TimerControl : [0x00#8, 0xC0#8, 0xA0#8, 0xE0#8].all statusOk = true ∧ statusOk 0x40 = false := by decide
theorem meets_OperatorWrites : (one.live = true ∧ one.hasChan 8 = true ∧ one.hasChan 9 = false) ∧
    two.live = true ∧ two.hasChan 17 = true := by decide
theorem meets_WaveformWrites : (after one [.test true]).glob.wse = true ∧ variantDefaults (after one [.test true]).cfg = true ∧
    (after one [.test true]).hasChan 0 = true := by decide
theorem meets_KonblkWrite : (let s := after two [.newmode true, .fourop 0x20]
    (s.live, s.hasChan 11, isMaster s 11, isSlave s 14)) = (true, true, true, true) := by decide
theorem meets_RepeatedKeyWrites : isKeyWrite (.konblk 0 true 4 2) = true ∧ isKeyWrite (.rhythm true true true true true true true true) = true := by
  decide
theorem meets_AbsentRegisters : one.live = true ∧ isRegWrite (.opwave ⟨9, .one⟩ 3) = true ∧
    Instr.wf one.cfg.variant (.opwave ⟨9, .one⟩ 3) = false := by decide
theorem meets_RegisterWrites : two.live = true ∧ isRegWrite (.konblk 0 true 4 2) = true ∧ isKeyWrite (.fnlo 0 1) = false := by
  decide
theorem meets_KeyEvents : Op.reset.key = 0 ∧ (keyOn 3 Op.reset).key ≠ 0 ∧ (keyOn 3 Op.reset).key &&& ~~~(1#3) ≠ 0 ∧
    (keyOn 1 Op.reset).key &&& ~~~(1#3) = 0 := by decide
theorem meets_TimerExpiries : one.live = true ∧ variantDefaults one.cfg = true ∧ statusOk one.status = true ∧
    (∀ c : Chan, (one.op ⟨c, .one⟩).key.getLsbD 2 = false ∧ (one.op ⟨c, .two⟩).key.getLsbD 2 = false) := by decide
theorem meets_PhaseChanges : (let s := after two [.konblk 0 true 4 2]
    ((two.op ⟨0, .one⟩).phase, (s.op ⟨0, .one⟩).phase, ((after s [.konblk 0 false 4 2]).op ⟨0, .one⟩).phase)) =
    (.off, .att, .rel) := by decide
theorem meets_Oscillators : two.live = true ∧ boundedConfig two.cfg = true ∧ two.gens.lfoAmCnt.toNat < 210 * 2 ^ 24 :=
  ⟨by decide, stdConfig_bounded .v2, by decide⟩
theorem meets_NoiseStep : (0x400000#23) ≠ 0 := by decide
theorem meets_EnvelopeLoop : 0 < two.cfg.rates.egOvf.toNat ∧
    (two.gens.egTimer.toNat + two.cfg.rates.egAdd.toNat) / two.cfg.rates.egOvf.toNat ≤ 1 := by decide
theorem meets_NativeTick : two.live = true ∧ two.cfg.rates = nativeRates ∧ two.gens.egTimer.toNat < 65536 := by decide

/-- A state with an operator in every envelope phase, each at a boundary of its attenuation. -/
def phases : State :=
  ((((two.updOp ⟨0, .one⟩ fun p => { p with phase := .att, vol := 0, key := 1, ar := 15 }).updOp
    ⟨0, .two⟩ fun p => { p with phase := .dec, vol := 495, key := 1, dr := 15, sl := 15 }).updOp
    ⟨1, .one⟩ fun p => { p with phase := .sus, vol := 511, key := 1, rr := 15 }).updOp
    ⟨1, .two⟩ fun p => { p with phase := .rel, vol := 510, rr := 15 }).updOp
    ⟨2, .one⟩ fun p => { p with phase := .sus, vol := 0, key := 1, egt := true }

/-- What an operator's invariants say, as a Boolean. -/
def opOk (p : Op) : Bool :=
  (p.phase != .off || p.vol == 511) && (p.phase != .dec || p.vol.toNat ≤ 499) && p.fb0.toInt.natAbs ≤ 4084 &&
    p.fb1.toInt.natAbs ≤ 4084 && p.key.getLsbD 2 == false

theorem opOk_safe {p : Op} (h : opOk p = true) : OpSafe p := by
  simp only [opOk, Bool.and_eq_true, Bool.or_eq_true, bne_iff_ne, beq_iff_eq, decide_eq_true_eq] at h
  obtain ⟨⟨⟨⟨h1, h2⟩, h3⟩, h4⟩, h5⟩ := h
  exact ⟨fun e => h1.resolve_left (fun k => k e), fun e => h2.resolve_left (fun k => k e), h3, h4, h5⟩

theorem meets_SafeState : SafeState phases where
  cfg_bounded := stdConfig_bounded .v2
  lfoAm_lt := by decide
  noise_ne := by decide
  egTimer_lt := by decide
  status_ok := by decide
  mixL_lt := by decide
  mixR_lt := by decide
  chans_safe c := by
    have h : ∀ c : Chan, (phases.chan c).chanout.toInt.natAbs ≤ busBound c ∧ (phases.chan c).peak.toNat ≤ busBound c ∧
        opOk (phases.chan c).slot1 = true ∧ opOk (phases.chan c).slot2 = true := by decide
    exact ⟨(h c).1, (h c).2.1, opOk_safe (h c).2.2.1, opOk_safe (h c).2.2.2⟩
  v1_bank h := by cases h
  v1_wave h := by cases h
  absent_reset c := by
    have h : ∀ c : Chan, phases.hasChan c = true := by decide
    rw [h c]
    exact fun k => Bool.noConfusion k

theorem meets_SafeState_step : ∃ t, step { phases with input := [.event .tick] } = .next t := ⟨_, rfl⟩
theorem meets_SafeState_live : phases.live = true := by decide
theorem meets_AttackStep : (phases.op ⟨0, .one⟩).phase = .att ∧ phases.gens.egCnt.toNat % 2 ^ (egPar phases ⟨0, .one⟩ .attack).1 = 0 := by
  decide
theorem meets_FallingSteps : (phases.op ⟨0, .two⟩).phase = .dec ∧ (phases.op ⟨1, .one⟩).phase = .sus ∧
    (phases.op ⟨1, .one⟩).egt = false ∧ (phases.op ⟨1, .two⟩).phase = .rel ∧ (phases.op ⟨2, .one⟩).egt = true ∧
    (phases.op ⟨3, .one⟩).phase = .off ∧
    phases.gens.egCnt.toNat % 2 ^ (egPar phases ⟨0, .two⟩ .decay).1 = 0 ∧
    phases.gens.egCnt.toNat % 2 ^ (egPar phases ⟨1, .two⟩ .release).1 = 0 := by decide
/-- A rate that is not due: `AR = DR = RR = 1` at envelope count 1. -/
theorem meets_not_due : (let s := after two [.tick, .opad ⟨0, .one⟩ 1 1, .opsr ⟨0, .one⟩ 0 1]
    (s.gens.egCnt.toNat % 2 ^ (egPar s ⟨0, .one⟩ .attack).1, s.gens.egCnt.toNat % 2 ^ (egPar s ⟨0, .one⟩ .decay).1,
      s.gens.egCnt.toNat % 2 ^ (egPar s ⟨0, .one⟩ .release).1)) = (1, 1, 1) := by decide
theorem meets_InstantAttack_v1 : (let s := after one [.opad ⟨0, .one⟩ 15 0, .konblk 0 true 4 0]
    (s.live, s.gens.egTimer, s.hasChan 0, (s.op ⟨0, .one⟩).phase, rate (s.op ⟨0, .one⟩).ar + ksr s ⟨0, .one⟩)) =
    (true, 0#32, true, .att, 78) := by decide
theorem meets_InstantAttack_v2 : (let s := after two [.opad ⟨17, .two⟩ 15 0, .konblk 17 true 0 0]
    (s.live, s.gens.egTimer, s.hasChan 17, (s.op ⟨17, .two⟩).phase, (s.op ⟨17, .two⟩).ar)) =
    (true, 0#32, true, .att, 15#4) := by decide
theorem meets_InstantAttack_cfg : (after one [.opad ⟨0, .one⟩ 15 0, .konblk 0 true 4 0]).cfg = stdConfig .v1 ∧
    (after two [.opad ⟨17, .two⟩ 15 0, .konblk 17 true 0 0]).cfg = stdConfig .v2 := ⟨rfl, rfl⟩
theorem meets_ExponentialConverter :
    boundedConfig two.cfg = true ∧ tlLen two.cfg.variant ≤ 6656 ∧ 6655 < tlLen two.cfg.variant :=
  ⟨stdConfig_bounded .v2, by decide, by decide⟩
/-- 43_operator_output.md R218 at both sides of the threshold: after reset every operator is above it, in attack from 0 one
is below it. -/
theorem meets_OperatorOutput : (one.cfg.tables = stdTables one.cfg.variant ∧ two.cfg.tables = stdTables two.cfg.variant) ∧
    boundedConfig one.cfg = true ∧ 1023 < 1024 ∧ env two ⟨0, .one⟩ = 511 ∧ env phases ⟨0, .one⟩ = 0 :=
  ⟨⟨rfl, rfl⟩, stdConfig_bounded .v1, by decide, by decide, by decide⟩
/-- A port word that no instruction encodes to: a read of port 2 with data bits, and a data write through port 3. -/
theorem meets_StepRuns_any : (Command.port 0b110_10000001#11).instr .v2 = .rd 2 ∧
    (Command.port 0b011_00100010#11).instr .v1 = .wrd 0x22 ∧
    { two with input := [.port 0b110_10000001#11] }.input = .port 0b110_10000001#11 :: [] := by decide
theorem meets_DerivedValues : boundedConfig two.cfg = true ∧ boundedConfig one.cfg = true :=
  ⟨stdConfig_bounded .v2, stdConfig_bounded .v1⟩
theorem meets_QuietOperators : envQuiet two.cfg.variant ≤ 416 ∧ envQuiet one.cfg.variant ≤ 384 := by decide
theorem meets_Feedback : (two.chan 0).fb = 0 ∧ ((after two [.fbcon 0 false false 7 false]).chan 0).fb ≠ 0 := by decide
theorem meets_ChannelOrder : two.chanList.reverse.Perm two.chanList := List.reverse_perm _
theorem meets_roles : (let s := after two [.newmode true, .fourop 1, .rhythm false false true false false false false false]
    (s.live, role s 0, role s 3, role s 6, role s 8, role s 9)) =
    (true, .master, .slave, .rhythm, .rhythm, .twoOp) := by decide
theorem meets_FourOperator : (3 : Chan).val = (0 : Chan).val + 3 := by decide
theorem meets_Rhythm : (let s := after one [.rhythm false false true false false false false false]
    (s.live, s.glob.rhy, s.hasChan 8)) = (true, true, true) := by decide
theorem meets_ResetForgets : ∃ u : State, core.run 1 { two with input := [.event .tick] } = .next u := ⟨_, rfl⟩
theorem meets_Silence : SilentState two := by
  have h : ∀ c : Chan, two.chan c = Channel.reset := by decide
  rintro ⟨c, sl⟩
  unfold State.op
  dsimp only
  rw [h c]
  cases sl <;> decide

end Sys2Proof.Tests
end

section
/-! SUPPORT. What a command does: the frame of every command but `TICK`, `PEAKCLR`, `RESET` and the address writes. -/

namespace Sys2Proof.Machine

/-! ### Steps -/

theorem step_cons {s : State} {c : Command} {rest : List Command} (h : s.input = c :: rest) :
    step s = exec (c.instr s.cfg.variant) { s with input := rest } := by
  unfold step nextCommand
  rw [h]

theorem step_nil {s : State} (h : s.input = []) : step s = .next s := by
  unfold step nextCommand
  rw [h]

/-- The format-P decoder on the three command bits and the data byte. -/
theorem decodeP_append (x : Variant) (k : BitVec 3) (d : Byte) :
    decodeP x (k ++ d) =
      if k.getLsbD 2 then .rd (k.extractLsb' 0 2)
      else if k.getLsbD 0 then .wrd d
      else if k.getLsbD 1 then (match x with | .v1 => .wra d | .v2 => .wra2 d)
      else .wra d := by
  have low : (k ++ d).extractLsb' 0 8 = d := by
    rw [BitVec.extractLsb'_append_eq_of_add_le (by decide), BitVec.extractLsb'_eq_self]
  have high : (k ++ d).extractLsb' 8 2 = k.extractLsb' 0 2 := by
    rw [BitVec.extractLsb'_append_eq_of_le (by decide)]
  unfold decodeP
  dsimp only
  rw [low, high]
  simp only [BitVec.getLsbD_append]
  rfl

/-- The format-P decoder reads back a well-formed port command. -/
theorem decodeP_of_encode {x : Variant} {i : Instr} {w : BitVec 11} (wf : i.wf x = true) (h : encode i = .p w) :
    decodeP x w = i := by
  cases i with
  | wra v | wrd v => cases h; exact decodeP_append x _ v
  | rd p =>
    cases h
    have bits : ∀ p : BitVec 2, (1#1 ++ p).getLsbD 2 = true ∧ (1#1 ++ p).extractLsb' 0 2 = p := by decide
    rw [decodeP_append, if_pos (bits p).1, (bits p).2]
  | wra2 v =>
    cases h
    rw [decodeP_append]
    cases x
    · cases wf
    · rfl
  | _ => cases h

theorem decodeE_of_encode {i : Instr} {e : HostEvent} (h : encode i = .e e) : decodeE e = i := by
  cases i <;> cases h <;> rfl

/-! ### Every instruction as a command -/

/-- What an instruction other than `RESET` does inside the frame `command`. -/
def body : Instr → State → State
  | .wra v => fun s => ({ s with addr := 0#1 ++ v }).returnsIrq
  | .wra2 v => fun s => ({ s with addr := bankOneAddr s.cfg.variant s.glob.new v }).returnsIrq
  | .wrd v => fun s => (regWrite s.addr v s).returnsIrq
  | .rd p => fun s => s.returns (.byte (if portOf s.cfg.variant p = 0 then statusRead s else 0))
  | .texp0 => fun s =>
    let t := csmKeys (irqSet flagTimer1 s)
    (t.emit (.timerReload 0 (timerPeriod1 t.glob))).returnsIrq
  | .texp1 => fun s =>
    let t := irqSet flagTimer2 s
    (t.emit (.timerReload 1 (timerPeriod2 t.glob))).returnsIrq
  | .tick => tickSteps
  | .peakclr => clearPeaks
  | i => regOp i

/-- The frame of an instruction other than `RESET` is `command`. -/
theorem exec_eq_command {i : Instr} (h : i ≠ .reset) (s : State) : exec i s = command s (body i) := by
  cases i
  case reset => exact absurd rfl h
  all_goals rfl

/-- The state that `RESET` leaves. -/
def afterReset (s : State) : State :=
  { State.resetOf s.cfg with input := s.input, out := { result := .none, events := resetEvents s } }

theorem exec_reset (s : State) : exec .reset s = .next (afterReset s) := rfl

/-- What an instruction that completes has done. -/
theorem exec_next {i : Instr} {s t : State} (h : exec i s = .next t) :
    (i = .reset ∧ t = afterReset s) ∨ (i ≠ .reset ∧ s.live = true ∧ t = body i s.begin) := by
  by_cases hi : i = .reset
  · subst hi
    rw [exec_reset, Host.Outcome.next.injEq] at h
    exact .inl ⟨rfl, h.symm⟩
  · rw [exec_eq_command hi, command_next] at h
    exact .inr ⟨hi, h⟩

/-- An absent channel is not changed. -/
theorem updChan_absent {s : State} {d : Chan} (hd : s.hasChan d = false) (c : Chan) (f : Channel → Channel) :
    (s.updChan c f).chan d = s.chan d := by
  rw [updChan_chan, if_neg]
  rintro ⟨rfl, h⟩
  rw [hd] at h; cases h

theorem resetOf_chan (cfg : Config) (c : Chan) : (State.resetOf cfg).chan c = Channel.reset := by
  rw [chan_eq_getElem]
  exact Vector.getElem_replicate _

theorem resetOf_op (cfg : Config) (o : OpRef) : (State.resetOf cfg).op o = Op.reset := by
  unfold State.op
  rw [resetOf_chan]
  cases o.slot <;> rfl

/-! ### The frame of a register write -/

/-- Changing every channel writes the channels. -/
theorem mapChans_frame (s : State) (f : Chan → Channel → Channel) :
    s.mapChans f = { s with chans := (s.mapChans f).chans } := by
  simp only [State.mapChans]

/-- What a register write and a timer expiry may change: outputs, global fields, status byte, and of the channels that
exist the fields other than bus and peak. -/
structure RegFrame (s t : State) : Prop where
  same    : t = { s with out := t.out, glob := t.glob, status := t.status, chans := t.chans }
  absent  : ∀ c, s.hasChan c = false → t.chan c = s.chan c
  chanout : ∀ c, (t.chan c).chanout = (s.chan c).chanout
  peak    : ∀ c, (t.chan c).peak = (s.chan c).peak

namespace RegFrame

theorem refl (s : State) : RegFrame s s := ⟨rfl, fun _ _ => rfl, fun _ => rfl, fun _ => rfl⟩

variable {s t u : State}

theorem cfg (h : RegFrame s t) : t.cfg = s.cfg := by rw [h.same]
theorem live (h : RegFrame s t) : t.live = s.live := by rw [h.same]
theorem addr (h : RegFrame s t) : t.addr = s.addr := by rw [h.same]
theorem gens (h : RegFrame s t) : t.gens = s.gens := by rw [h.same]
theorem mixL (h : RegFrame s t) : t.mixL = s.mixL := by rw [h.same]
theorem mixR (h : RegFrame s t) : t.mixR = s.mixR := by rw [h.same]

theorem hasChan (h : RegFrame s t) (c : Chan) : t.hasChan c = s.hasChan c := by
  unfold State.hasChan; rw [h.cfg]

theorem trans (h : RegFrame s t) (k : RegFrame t u) : RegFrame s u where
  same := by rw [k.same, h.same]
  absent c hc := by rw [k.absent c (by rw [h.hasChan, hc]), h.absent c hc]
  chanout c := by rw [k.chanout, h.chanout]
  peak c := by rw [k.peak, h.peak]

/-- A change that leaves the channels alone. -/
theorem of_chans (same : t = { s with out := t.out, glob := t.glob, status := t.status }) : RegFrame s t where
  same := by rw [same]
  absent c _ := by rw [same]; rfl
  chanout c := by rw [same]; rfl
  peak c := by rw [same]; rfl

theorem emit (s : State) (e : Emitted) : RegFrame s (s.emit e) := of_chans rfl

theorem returns (s : State) (r : Result) : RegFrame s (s.returns r) := of_chans rfl

theorem irqSet (f : Byte) (s : State) : RegFrame s (irqSet f s) := of_chans (by rw [irqSet_frame])

theorem irqClear (f : Byte) (s : State) : RegFrame s (irqClear f s) := of_chans (by rw [irqClear_frame])

/-- A change of one channel that keeps its bus and its peak. -/
theorem updChan (s : State) (c : Chan) {f : Channel → Channel} (ho : ∀ ch, (f ch).chanout = ch.chanout)
    (hp : ∀ ch, (f ch).peak = ch.peak) : RegFrame s (s.updChan c f) where
  same := by unfold State.updChan; split <;> rfl
  absent d hd := updChan_absent hd c f
  chanout d := by
    rw [updChan_chan]
    split
    · next e => rw [ho, e.1]
    · rfl
  peak d := by
    rw [updChan_chan]
    split
    · next e => rw [hp, e.1]
    · rfl

theorem updOp (s : State) (o : OpRef) (f : Op → Op) : RegFrame s (s.updOp o f) :=
  updChan s o.ch (fun _ => setOp_chanout _ _ _) (fun _ => setOp_peak _ _ _)

/-- A change of every channel that keeps buses and peaks. -/
theorem mapChans (s : State) {f : Chan → Channel → Channel} (ho : ∀ c ch, (f c ch).chanout = ch.chanout)
    (hp : ∀ c ch, (f c ch).peak = ch.peak) : RegFrame s (s.mapChans f) where
  same := by rw [mapChans_frame]
  absent c hc := by rw [mapChans_chan, hc]; rfl
  chanout c := by
    rw [mapChans_chan]
    split
    · exact ho _ _
    · rfl
  peak c := by
    rw [mapChans_chan]
    split
    · exact hp _ _
    · rfl

theorem foldl {α : Type} {g : State → α → State} (h : ∀ s a, RegFrame s (g s a)) (l : List α) (s : State) :
    RegFrame s (l.foldl g s) := by
  induction l generalizing s with
  | nil => exact refl s
  | cons a l ih => exact (h s a).trans (ih _)

theorem writeSt1 (v : Bool) (s : State) : RegFrame s (writeSt1 v s) := by
  unfold Machine.writeSt1
  split
  · exact refl s
  · exact of_chans rfl

theorem writeSt2 (v : Bool) (s : State) : RegFrame s (writeSt2 v s) := by
  unfold Machine.writeSt2
  split
  · exact refl s
  · exact of_chans rfl

theorem writeTctl (rst mt1 mt2 st2 st1 : Bool) (s : State) : RegFrame s (writeTctl rst mt1 mt2 st2 st1 s) := by
  unfold Machine.writeTctl
  split
  · exact irqClear _ s
  · exact (irqClear _ s).trans ((of_chans rfl).trans ((writeSt2 _ _).trans (writeSt1 _ _)))

theorem rhythmKeys (s : State) : RegFrame s (rhythmKeys s) := foldl (fun t _ => updOp t _ _) _ s

theorem writeKonblk (c : Chan) (kon : Bool) (block : BitVec 3) (hi : BitVec 2) (s : State) :
    RegFrame s (writeKonblk c kon block hi s) := by
  unfold Machine.writeKonblk
  refine RegFrame.trans ?_ (foldl (fun t o => updOp t o _) _ _)
  exact updChan s c (fun _ => rfl) (fun _ => rfl)

theorem writeFbcon (c : Chan) (chb cha : Bool) (fb : BitVec 3) (con : Bool) (s : State) :
    RegFrame s (writeFbcon c chb cha fb con s) :=
  updChan s c (fun _ => by unfold storeFbcon; split <;> rfl) (fun _ => by unfold storeFbcon; split <;> rfl)

theorem writeTest (wse : Bool) (s : State) : RegFrame s (writeTest wse s) := by
  unfold Machine.writeTest
  split
  · exact of_chans rfl
  · exact refl s

theorem writeFourop (ext : BitVec 6) (s : State) : RegFrame s (writeFourop ext s) := by
  unfold Machine.writeFourop
  split
  · exact refl s
  · exact of_chans rfl

theorem writeNewmode (new : Bool) (s : State) : RegFrame s (writeNewmode new s) := by
  unfold Machine.writeNewmode
  split
  · exact refl s
  · exact of_chans rfl

theorem writeOpwave (o : OpRef) (ws : BitVec 3) (s : State) : RegFrame s (writeOpwave o ws s) := by
  unfold Machine.writeOpwave
  split
  · exact refl s
  · exact updOp s _ _

theorem writeFnlo (c : Chan) (lo : Byte) (s : State) : RegFrame s (writeFnlo c lo s) := by
  unfold Machine.writeFnlo
  exact updChan s c (fun _ => rfl) (fun _ => rfl)

/-- Every register write stays in the frame. -/
theorem regOp (i : Instr) (s : State) : RegFrame s (regOp i s) := by
  cases i with
  | wra | wra2 | wrd | rd | texp0 | texp1 | tick | peakclr | reset => exact refl s
  | test => exact writeTest _ s
  | timer1 | timer2 | mode => exact of_chans rfl
  | tctl => exact writeTctl _ _ _ _ _ s
  | fourop => exact writeFourop _ s
  | newmode => exact writeNewmode _ s
  | rhythm => exact RegFrame.trans (of_chans rfl) (rhythmKeys _)
  | opchar o am vib egt ksr mult =>
    exact updOp s o fun p => { p with am := am, vib := vib, egt := egt, ksr := ksr, mult := mult }
  | oplevel o ksl tl => exact updOp s o fun p => { p with ksl := ksl, tl := tl }
  | opad o ar dr => exact updOp s o fun p => { p with ar := ar, dr := dr }
  | opsr o sl rr => exact updOp s o fun p => { p with sl := sl, rr := rr }
  | opwave => exact writeOpwave _ _ s
  | fnlo => exact writeFnlo _ _ s
  | konblk => exact writeKonblk _ _ _ _ s
  | fbcon => exact writeFbcon _ _ _ _ _ s

theorem regWrite (a : BitVec 9) (v : Byte) (s : State) : RegFrame s (regWrite a v s) := by
  unfold Machine.regWrite
  split
  · exact regOp _ s
  · exact refl s

theorem csmKeys (s : State) : RegFrame s (csmKeys s) := by
  unfold Machine.csmKeys
  split
  · exact mapChans s (fun _ _ => rfl) (fun _ _ => rfl)
  · exact refl s

end RegFrame

/-- A register write as an instruction of its own is the rule that a data write performs. -/
theorem body_eq_regOp {i : Instr} (h : isRegWrite i = true) : body i = regOp i := by
  cases i with
  | wra | wra2 | wrd | rd | texp0 | texp1 | tick | peakclr | reset => cases h
  | _ => rfl

/-- What an instruction other than `RESET` can do: an address write writes the latch; every
other but `TICK` and `PEAKCLR` stays in the frame of a register write. -/
theorem body_cases (i : Instr) (s : State) :
    (∃ v a, (i = .wra v ∨ i = .wra2 v) ∧ body i s = ({ s with addr := a }).returnsIrq) ∨
    i = .tick ∨ i = .peakclr ∨ RegFrame s (body i s) := by
  by_cases h : isRegWrite i = true
  · rw [body_eq_regOp h]
    exact .inr (.inr (.inr (RegFrame.regOp i s)))
  cases i with
  | wra v => exact .inl ⟨v, _, .inl rfl, rfl⟩
  | wra2 v => exact .inl ⟨v, _, .inr rfl, rfl⟩
  | tick => exact .inr (.inl rfl)
  | peakclr => exact .inr (.inr (.inl rfl))
  | wrd v => exact .inr (.inr (.inr ((RegFrame.regWrite _ _ s).trans (RegFrame.returns _ _))))
  | rd => exact .inr (.inr (.inr (RegFrame.returns _ _)))
  | texp0 => exact .inr (.inr (.inr ((RegFrame.irqSet _ s).trans
      ((RegFrame.csmKeys _).trans ((RegFrame.emit _ _).trans (RegFrame.returns _ _))))))
  | texp1 => exact .inr (.inr (.inr ((RegFrame.irqSet _ s).trans
      ((RegFrame.emit _ _).trans (RegFrame.returns _ _)))))
  | reset => exact .inr (.inr (.inr (RegFrame.refl s)))
  | _ => exact absurd rfl h

end Sys2Proof.Machine
end

section
/-! SUPPORT. What a register write and a timer expiry can do to one operator. -/

namespace Sys2Proof.Machine

/-! ### One operator under updates of the channels -/

/-- A change of one channel that keeps its operators keeps every operator. -/
theorem updChan_op {s : State} {c : Chan} {f : Channel → Channel} (hf : ∀ ch sl, (f ch).op sl = ch.op sl) (o : OpRef) :
    (s.updChan c f).op o = s.op o := by
  unfold State.op
  rw [updChan_chan]
  split
  · next e => rw [hf, e.1]
  · rfl

/-- Updates of other operators leave an operator alone. -/
theorem foldl_updOp_op_of_ne {α : Type} {g : α → OpRef} {f : α → Op → Op} {l : List α} {o : OpRef}
    (h : ∀ a ∈ l, g a ≠ o) (s : State) : (l.foldl (fun t a => t.updOp (g a) (f a)) s).op o = s.op o := by
  induction l generalizing s with
  | nil => rfl
  | cons a l ih =>
    rw [List.foldl_cons, ih (fun b hb => h b (List.mem_cons_of_mem a hb)), updOp_op, if_neg]
    exact fun e => h a List.mem_cons_self e.1.symm

/-- Updates of operators leave the status byte alone. -/
theorem foldl_updOp_status {α : Type} (g : α → OpRef) (f : α → Op → Op) (l : List α) (s : State) :
    (l.foldl (fun t a => t.updOp (g a) (f a)) s).status = s.status := by
  induction l generalizing s with
  | nil => rfl
  | cons a l ih => rw [List.foldl_cons, ih, updOp_status]

/-- An operator after a list of updates of distinct operators: as it was, or changed once. -/
theorem foldl_updOp_op {α : Type} {g : α → OpRef} {f : α → Op → Op} {l : List α} (hl : (l.map g).Nodup) (s : State)
    (o : OpRef) :
    (l.foldl (fun t a => t.updOp (g a) (f a)) s).op o = s.op o ∨
      ∃ a ∈ l, (l.foldl (fun t a => t.updOp (g a) (f a)) s).op o = f a (s.op o) := by
  induction l generalizing s with
  | nil => exact .inl rfl
  | cons a l ih =>
    rw [List.map_cons, List.nodup_cons] at hl
    obtain ⟨fresh, hl⟩ := hl
    rw [List.foldl_cons]
    by_cases ho : o = g a ∧ s.hasChan (g a).ch = true
    · have later : ∀ b ∈ l, g b ≠ o := fun b hb e => fresh (ho.1 ▸ e ▸ List.mem_map_of_mem hb)
      refine .inr ⟨a, List.mem_cons_self, ?_⟩
      rw [foldl_updOp_op_of_ne later, updOp_op, if_pos ho, ho.1]
    · rcases ih hl (s.updOp (g a) (f a)) with h | ⟨b, hb, h⟩
      · rw [h, updOp_op, if_neg ho]; exact .inl rfl
      · rw [h, updOp_op, if_neg ho]; exact .inr ⟨b, List.mem_cons_of_mem a hb, rfl⟩

/-! ### Register writes -/

/-- The fields of an operator that only key events and ticks write (10_state.md R40, 47_register_writes.md R295). -/
def Op.dynamics (p : Op) : Op :=
  { Op.reset with cnt := p.cnt, phase := p.phase, vol := p.vol, key := p.key, fb0 := p.fb0, fb1 := p.fb1 }

/-- What a register write can do to an operator: store programmable fields, in V1 no waveform past two bits; or, a key
write, perform one key event. -/
inductive OpWrite (x : Variant) (keys : Bool) (p : Op) : Op → Prop where
  | fields (q : Op) (dyn : q.dynamics = p.dynamics)
      (waves : x = .v1 → (q.wave = p.wave ∧ q.wsReg = p.wsReg) ∨ ∃ ws, q.wave = lowWave ws ∧ q.wsReg = lowWave ws) :
      OpWrite x keys p q
  | key (on : Bool) (b : BitVec 3) (hk : keys = true) (hb : b = keyBitChannel ∨ b = keyBitRhythm) :
      OpWrite x keys p (keyEvent on b p)

theorem ne_pairHigh (c : Chan) : c ≠ pairHigh c := by revert c; decide

namespace OpWrite

variable {x : Variant} {keys : Bool} {p q : Op}

/-- An operator whose waveform and dynamic state stay. -/
theorem of_same (dyn : q.dynamics = p.dynamics) (wave : q.wave = p.wave) (wsReg : q.wsReg = p.wsReg) :
    OpWrite x keys p q := .fields q dyn fun _ => .inl ⟨wave, wsReg⟩

theorem refl (p : Op) : OpWrite x keys p p := of_same rfl rfl rfl

theorem of_eq (h : q = p) : OpWrite x keys p q := h ▸ refl q

theorem updOp {s : State} {o : OpRef} {f : Op → Op} (h : OpWrite x keys (s.op o) (f (s.op o))) (q : OpRef) :
    OpWrite x keys (s.op q) ((s.updOp o f).op q) := by
  rw [updOp_op]
  split
  · next e => rw [e.1]; exact h
  · exact refl _

theorem storeWave (new : Bool) (ws : BitVec 3) (p : Op) : OpWrite x keys p (storeWave x new ws p) := by
  cases x with
  | v1 => exact .fields _ rfl fun _ => .inr ⟨ws, rfl, rfl⟩
  | v2 => exact .fields _ rfl fun h => nomatch h

theorem writeOpwave (o q : OpRef) (ws : BitVec 3) (s : State) :
    OpWrite s.cfg.variant keys (s.op q) ((writeOpwave o ws s).op q) := by
  unfold Machine.writeOpwave
  split
  · exact refl _
  · exact updOp (storeWave _ _ _) q

theorem writeFbcon (c : Chan) (chb cha : Bool) (fb : BitVec 3) (con : Bool) (s : State) (q : OpRef) :
    OpWrite x keys (s.op q) ((writeFbcon c chb cha fb con s).op q) :=
  of_eq (updChan_op (fun ch sl => by unfold storeFbcon; split <;> cases sl <;> rfl) q)

theorem rhythmKeys (s : State) (q : OpRef) : OpWrite x true (s.op q) ((rhythmKeys s).op q) := by
  have distinct : ((rhythmTargets s.glob).map (·.1)).Nodup := by
    change [(⟨6, .one⟩ : OpRef), ⟨6, .two⟩, ⟨7, .one⟩, ⟨7, .two⟩, ⟨8, .one⟩, ⟨8, .two⟩].Nodup
    decide
  rcases foldl_updOp_op (f := fun ob => keyEvent (s.glob.rhy && ob.2) keyBitRhythm) distinct s q with h | ⟨a, -, h⟩
  · exact of_eq h
  · unfold Machine.rhythmKeys; rw [h]; exact .key _ _ rfl (.inr rfl)

theorem writeRhythm (dam dvb rhy bd sd tom tc hh : Bool) (s : State) (q : OpRef) :
    OpWrite x true (s.op q) ((writeRhythm dam dvb rhy bd sd tom tc hh s).op q) :=
  rhythmKeys { s with glob := { s.glob with
    dam := dam, dvb := dvb, rhy := rhy, bd := bd, sd := sd, tom := tom, tc := tc, hh := hh } } q

/-- No operator is keyed twice by one channel key bit. -/
theorem konTargets_nodup (s : State) (c : Chan) : (konTargets s c).Nodup := by
  unfold konTargets
  split
  · exact List.nodup_nil
  · split <;> simp [ne_pairHigh]

theorem writeKonblk (c : Chan) (kon : Bool) (block : BitVec 3) (hi : BitVec 2) (s : State) (q : OpRef) :
    OpWrite x true (s.op q) ((writeKonblk c kon block hi s).op q) := by
  have distinct : ((konTargets s c).map id).Nodup := by rw [List.map_id]; exact konTargets_nodup s c
  unfold Machine.writeKonblk
  rcases foldl_updOp_op (f := fun _ => keyEvent kon keyBitChannel) distinct
    (s.updChan c fun ch => { ch with fnum := hi ++ ch.fnum.extractLsb' 0 8, block := block }) q with h | ⟨a, -, h⟩
  all_goals
    rw [updChan_op (fun ch sl => by cases sl <;> rfl)] at h
  · exact of_eq h
  · dsimp only [id] at h; rw [h]; exact .key _ _ rfl (.inl rfl)

/-- A register write that leaves the channels leaves the operators. -/
theorem of_chans {s t : State} (h : t.chans = s.chans) (q : OpRef) : OpWrite x keys (s.op q) (t.op q) :=
  of_eq (by unfold State.op State.chan; rw [h])

end OpWrite

/-! ### The timer control write -/

@[simp] theorem irqClear_chans (f : Byte) (s : State) : (irqClear f s).chans = s.chans := by rw [irqClear_frame]

@[simp] theorem writeSt1_chans (v : Bool) (s : State) : (writeSt1 v s).chans = s.chans := by
  unfold writeSt1; split <;> rfl
@[simp] theorem writeSt1_status (v : Bool) (s : State) : (writeSt1 v s).status = s.status := by
  unfold writeSt1; split <;> rfl
@[simp] theorem writeSt2_chans (v : Bool) (s : State) : (writeSt2 v s).chans = s.chans := by
  unfold writeSt2; split <;> rfl
@[simp] theorem writeSt2_status (v : Bool) (s : State) : (writeSt2 v s).status = s.status := by
  unfold writeSt2; split <;> rfl

@[simp] theorem writeTctl_chans (rst mt1 mt2 st2 st1 : Bool) (s : State) :
    (writeTctl rst mt1 mt2 st2 st1 s).chans = s.chans := by
  unfold writeTctl
  split
  · exact irqClear_chans _ _
  · simp only [writeSt1_chans, writeSt2_chans, irqClear_chans]

/-- The timer control write clears flags. -/
theorem writeTctl_status (rst mt1 mt2 st2 st1 : Bool) (s : State) :
    (writeTctl rst mt1 mt2 st2 st1 s).status =
      (irqClear (if rst then flagsBoth else 0#1 ++ bit mt1 ++ bit mt2 ++ 0#5) s).status := by
  unfold writeTctl
  split
  · rfl
  · simp only [writeSt1_status, writeSt2_status]

/-! ### Every register write -/

/-- What a register write does to an operator. -/
theorem regOp_op (i : Instr) (s : State) (q : OpRef) :
    OpWrite s.cfg.variant (isKeyWrite i) (s.op q) ((regOp i s).op q) := by
  cases i with
  | wra | wra2 | wrd | rd | texp0 | texp1 | tick | peakclr | reset => exact .refl _
  | test => exact .of_chans (by unfold regOp writeTest; dsimp only; split <;> rfl) q
  | timer1 | timer2 | mode => exact .of_chans rfl q
  | tctl => exact .of_chans (writeTctl_chans _ _ _ _ _ s) q
  | fourop => exact .of_chans (by unfold regOp writeFourop; dsimp only; split <;> rfl) q
  | newmode => exact .of_chans (by unfold regOp writeNewmode; dsimp only; split <;> rfl) q
  | rhythm => exact OpWrite.writeRhythm _ _ _ _ _ _ _ _ s q
  | opchar o am vib egt ksr mult =>
    exact OpWrite.updOp (f := fun p => { p with am := am, vib := vib, egt := egt, ksr := ksr, mult := mult })
      (.of_same rfl rfl rfl) q
  | oplevel o ksl tl => exact OpWrite.updOp (f := fun p => { p with ksl := ksl, tl := tl }) (.of_same rfl rfl rfl) q
  | opad o ar dr => exact OpWrite.updOp (f := fun p => { p with ar := ar, dr := dr }) (.of_same rfl rfl rfl) q
  | opsr o sl rr => exact OpWrite.updOp (f := fun p => { p with sl := sl, rr := rr }) (.of_same rfl rfl rfl) q
  | opwave => exact OpWrite.writeOpwave _ _ _ s
  | fnlo c lo => exact .of_eq (updChan_op (fun ch sl => by cases sl <;> rfl) q)
  | konblk => exact OpWrite.writeKonblk _ _ _ _ s q
  | fbcon => exact OpWrite.writeFbcon _ _ _ _ _ s q

/-- The CSM mechanism leaves an operator or keys it on and off. -/
theorem csmKeys_op (s : State) (o : OpRef) :
    (csmKeys s).op o = s.op o ∨ (csmKeys s).op o = keyOff keyBitCsm (keyOn keyBitCsm (s.op o)) := by
  unfold csmKeys
  split
  · unfold State.op
    rw [mapChans_chan]
    split
    · exact .inr (mapOps_op _ _ _)
    · exact .inl rfl
  · exact .inl rfl

end Sys2Proof.Machine
end

section
/-! SUPPORT. What each of the eight steps of a tick keeps, and what every command keeps of configuration, latch and status
byte. -/

namespace Sys2Proof.Machine

/-! ### What a tick keeps -/

/-- A tick changes no key mask and brings no operator into attack or release (42_envelope_generator.md R197). -/
structure TickMove (p q : Op) : Prop where
  key : q.key = p.key
  att : q.phase = .att → p.phase = .att
  rel : q.phase = .rel → p.phase = .rel

/-- What each of the eight steps of a tick keeps. -/
structure TickFrame (s t : State) : Prop where
  same : t = { s with gens := t.gens, mixL := t.mixL, mixR := t.mixR, chans := t.chans }
  op   : ∀ o, TickMove (s.op o) (t.op o)

theorem TickMove.of_same {p q : Op} (key : q.key = p.key) (phase : q.phase = p.phase) : TickMove p q :=
  ⟨key, fun e => phase ▸ e, fun e => phase ▸ e⟩

theorem TickMove.of_eq {p q : Op} (h : q = p) : TickMove p q := .of_same (by rw [h]) (by rw [h])

/-- The phases that an envelope step can enter. -/
theorem egStep_phase (s : State) (o : OpRef) :
    (egStep s o).phase = (s.op o).phase ∨ (egStep s o).phase = .dec ∨ (egStep s o).phase = .sus ∨
      (egStep s o).phase = .off := by
  unfold egStep
  split
  · unfold attackStep
    dsimp only
    split
    · split
      · exact .inr (.inl rfl)
      · exact .inl rfl
    · exact .inl rfl
  · unfold decayStep
    dsimp only
    split
    · split
      · exact .inr (.inr (.inl rfl))
      · exact .inr (.inl rfl)
    · exact .inl rfl
  · unfold sustainStep
    dsimp only
    split
    · exact .inl rfl
    · split <;> exact .inl rfl
  · unfold releaseStep
    dsimp only
    split
    · split
      · exact .inr (.inr (.inr rfl))
      · exact .inl rfl
    · exact .inl rfl
  · exact .inl rfl

theorem TickMove.egStep (s : State) (o : OpRef) : TickMove (s.op o) (egStep s o) where
  key := by rw [egStep_frame]
  att e := by
    rcases egStep_phase s o with h | h | h | h <;> rw [h] at e
    · exact e
    all_goals cases e
  rel e := by
    rcases egStep_phase s o with h | h | h | h <;> rw [h] at e
    · exact e
    all_goals cases e

namespace TickFrame

variable {s t u : State}

theorem cfg (h : TickFrame s t) : t.cfg = s.cfg := by rw [h.same]
theorem live (h : TickFrame s t) : t.live = s.live := by rw [h.same]
theorem addr (h : TickFrame s t) : t.addr = s.addr := by rw [h.same]
theorem status (h : TickFrame s t) : t.status = s.status := by rw [h.same]

theorem trans (h : TickFrame s t) (k : TickFrame t u) : TickFrame s u where
  same := by rw [k.same, h.same]
  op o := ⟨(k.op o).key.trans (h.op o).key, fun e => (h.op o).att ((k.op o).att e),
    fun e => (h.op o).rel ((k.op o).rel e)⟩

/-- A step that leaves the operators alone. -/
theorem of_op (same : t = { s with gens := t.gens, mixL := t.mixL, mixR := t.mixR, chans := t.chans })
    (op : ∀ o, t.op o = s.op o) : TickFrame s t := ⟨same, fun o => .of_eq (op o)⟩

/-- A step that changes every channel. -/
theorem mapChans (s : State) {f : Chan → Channel → Channel}
    (h : ∀ c sl, TickMove ((s.chan c).op sl) ((f c (s.chan c)).op sl)) : TickFrame s (s.mapChans f) where
  same := by rw [mapChans_frame]
  op o := by
    unfold State.op
    rw [mapChans_chan]
    split
    · exact h _ _
    · exact .of_eq rfl

theorem of_busFrame (h : BusFrame s t) : TickFrame s t where
  same := by rw [h.same]
  op o := by rw [h.op o]; exact .of_same rfl rfl

theorem lfoAdvance (s : State) : TickFrame s (lfoAdvance s) := of_op rfl fun _ => rfl

theorem mixStep (s : State) : TickFrame s (mixStep s) :=
  of_op (by rw [mixStep_frame]) fun o => by rw [mixStep_frame]; rfl

theorem peakStep (s : State) : TickFrame s (peakStep s) := mapChans s fun _ sl => .of_eq (by cases sl <;> rfl)

theorem egTick (s : State) : TickFrame s (egTick s) := by
  have counted : TickFrame s { s with gens := { s.gens with egCnt := s.gens.egCnt + 1 } } := of_op rfl fun _ => rfl
  unfold Machine.egTick
  exact counted.trans (mapChans _ fun c sl => by rw [mapOps_op]; exact TickMove.egStep _ ⟨c, sl⟩)

theorem egAdvance (s : State) : TickFrame s (egAdvance s) :=
  repeat_keeps (P := TickFrame s) (fun t h => h.trans (egTick t)) _ (of_op rfl fun _ => rfl)

theorem phaseAdvance (s : State) : TickFrame s (phaseAdvance s) :=
  mapChans s fun c sl => by rw [mapOps_op]; exact .of_same rfl rfl

theorem noiseAdvance (s : State) : TickFrame s (noiseAdvance s) := of_op rfl fun _ => rfl

theorem tickSteps (s : State) : TickFrame s (tickSteps s) := by
  have sample := (lfoAdvance s).trans ((of_busFrame (BusFrame.clearOut _)).trans
    ((of_busFrame (BusFrame.channelsStep _)).trans (mixStep _)))
  exact sample.trans ((peakStep _).trans ((egAdvance _).trans ((phaseAdvance _).trans (noiseAdvance _))))

theorem clearPeaks (s : State) : TickFrame s (clearPeaks s) := mapChans s fun _ sl => .of_eq (by cases sl <;> rfl)

end TickFrame

theorem clearPeaks_op (s : State) (o : OpRef) : (clearPeaks s).op o = s.op o := by
  unfold clearPeaks State.op
  rw [mapChans_chan]
  split
  · cases o.slot <;> rfl
  · rfl

/-! ### Configuration and first reset -/

/-- No command but `RESET` writes the configuration or the sign of the first reset. -/
theorem body_cfg_live (i : Instr) (s : State) : (body i s).cfg = s.cfg ∧ (body i s).live = s.live := by
  rcases body_cases i s with ⟨v, a, -, e⟩ | rfl | rfl | h
  · rw [e]; exact ⟨rfl, rfl⟩
  · exact ⟨(TickFrame.tickSteps s).cfg, (TickFrame.tickSteps s).live⟩
  · exact ⟨(TickFrame.clearPeaks s).cfg, (TickFrame.clearPeaks s).live⟩
  · exact ⟨h.cfg, h.live⟩

/-! ### Latch and status byte -/

/-- Of the register writes only `TCTL` changes the status byte. -/
theorem regOp_status (i : Instr) (s : State) :
    (regOp i s).status = s.status ∨ ∃ rst mt1 mt2 st2 st1, i = .tctl rst mt1 mt2 st2 st1 := by
  cases i with
  | tctl => exact .inr ⟨_, _, _, _, _, rfl⟩
  | test => exact .inl (by unfold regOp writeTest; dsimp only; split <;> rfl)
  | fourop => exact .inl (by unfold regOp writeFourop; dsimp only; split <;> rfl)
  | newmode => exact .inl (by unfold regOp writeNewmode; dsimp only; split <;> rfl)
  | rhythm => exact .inl (foldl_updOp_status _ _ _ _)
  | opchar | oplevel | opad | opsr => exact .inl (updOp_status _ _ _)
  | opwave => exact .inl (by unfold regOp writeOpwave; dsimp only; split <;> simp only [updOp_status])
  | fnlo | fbcon => exact .inl (updChan_status _ _ _)
  | konblk => exact .inl ((foldl_updOp_status _ _ _ _).trans (updChan_status _ _ _))
  | _ => exact .inl rfl

theorem decodeOpReg_ok {g : OpReg} {bank : Bool} {a : Byte} {l : Loc} (h : decodeOpReg g bank a = .ok l) :
    ∃ o, l = .opReg g o := by
  unfold decodeOpReg at h
  split at h
  · cases h; exact ⟨_, rfl⟩
  · cases h

theorem decodeChanReg_ok {mk : Chan → Loc} {bank : Bool} {a : Byte} {l : Loc} (h : decodeChanReg mk bank a = .ok l) :
    ∃ c, l = mk c := by
  unfold decodeChanReg at h
  split at h
  · cases h; exact ⟨_, rfl⟩
  · cases h

theorem decodeGlobal0_tctl {a : Byte} (h : decodeGlobal0 a = .ok .tctl) : a = 0x04 := by
  unfold decodeGlobal0 at h
  (repeat' split at h) <;> first | assumption | cases h

theorem decodeGlobal1_ne_tctl (a : Byte) : decodeGlobal1 a ≠ .ok .tctl := by
  unfold decodeGlobal1
  (repeat' split) <;> nofun

theorem decodeRow5_ne_tctl (bank : Bool) (a : Byte) : decodeRow5 bank a ≠ .ok .tctl := by
  intro h
  unfold decodeRow5 at h
  split at h
  · split at h <;> cases h
  · split at h
    · obtain ⟨c, e⟩ := decodeChanReg_ok h; cases e
    · obtain ⟨c, e⟩ := decodeChanReg_ok h; cases e

/-- `TCTL` is at bank 0 `0x04` and nowhere else (30_encoding.md R106). -/
theorem decodeLoc_tctl {x : Variant} {bank : Bool} {a : Byte} (h : decodeLoc x bank a = .ok .tctl) :
    bank = false ∧ a = 0x04 := by
  have op : ∀ {g}, decodeOpReg g bank a ≠ .ok .tctl := fun e => by
    obtain ⟨o, e⟩ := decodeOpReg_ok e; cases e
  unfold decodeLoc at h
  split at h
  · cases h
  · split at h
    · cases bank
      · exact ⟨rfl, decodeGlobal0_tctl h⟩
      · exact absurd h (decodeGlobal1_ne_tctl a)
    · exact absurd h op
    · exact absurd h op
    · exact absurd h op
    · exact absurd h op
    · exact absurd h (decodeRow5_ne_tctl bank a)
    · obtain ⟨c, e⟩ := decodeChanReg_ok h; cases e
    · exact absurd h op

/-- Only the location `TCTL` has the register write `TCTL`. -/
theorem loc_of_instr_tctl {l : Loc} {v : Byte} {rst mt1 mt2 st2 st1 : Bool}
    (h : l.instr v = .tctl rst mt1 mt2 st2 st1) : l = .tctl := by
  cases l with
  | tctl => rfl
  | opReg g o => cases g <;> cases h
  | _ => cases h

/-- The bits of an address in a format-R word. -/
theorem address_bits (a : BitVec 9) (v : Byte) :
    a = BitVec.ofBool ((a ++ v).getLsbD 16) ++ (a ++ v).extractLsb' 8 8 := by
  apply BitVec.eq_of_getLsbD_eq
  intro i hi
  have shift : ∀ k, (a ++ v).getLsbD (8 + k) = a.getLsbD k := fun k => by
    rw [BitVec.getLsbD_append, if_neg (by omega), Nat.add_sub_cancel_left]
  rw [BitVec.getLsbD_append, BitVec.getLsbD_extractLsb', shift]
  split
  · next h => simp [h]
  · next h =>
    obtain rfl : i = 8 := by omega
    rw [shift 8, Nat.sub_self]
    simp

/-- A data write that performs `TCTL` has `0x004` in the latch. -/
theorem addr_of_decodeR_tctl {x : Variant} {a : BitVec 9} {v : Byte} {rst mt1 mt2 st2 st1 : Bool}
    (h : decodeR x (a ++ v) = .ok (.tctl rst mt1 mt2 st2 st1)) : a = 0x004 := by
  unfold decodeR at h
  generalize e : decodeLoc x ((a ++ v).getLsbD 16) ((a ++ v).extractLsb' 8 8) = r at h
  cases r with
  | error => cases h
  | ok l =>
    rw [Except.map, Except.ok.injEq] at h
    rw [loc_of_instr_tctl h] at e
    obtain ⟨bank, number⟩ := decodeLoc_tctl e
    rw [address_bits a v, bank, number]
    rfl

/-- What a data write does to the status byte. -/
theorem regWrite_status (a : BitVec 9) (v : Byte) (s : State) : (regWrite a v s).status = s.status ∨ a = 0x004 := by
  unfold regWrite
  split
  · next i e =>
    rcases regOp_status i s with h | ⟨rst, mt1, mt2, st2, st1, rfl⟩
    · exact .inl h
    · exact .inr (addr_of_decodeR_tctl e)
  · exact .inl rfl

theorem body_addr (i : Instr) (s : State) : (body i s).addr = s.addr ∨ ∃ v, i = .wra v ∨ i = .wra2 v := by
  rcases body_cases i s with ⟨v, a, hi, -⟩ | rfl | rfl | h
  · exact .inr ⟨v, hi⟩
  · exact .inl (TickFrame.tickSteps s).addr
  · exact .inl (TickFrame.clearPeaks s).addr
  · exact .inl h.addr

theorem body_status (i : Instr) (s : State) :
    (body i s).status = s.status ∨ i = .texp0 ∨ i = .texp1 ∨
      (∃ rst mt1 mt2 st2 st1, i = .tctl rst mt1 mt2 st2 st1) ∨ ∃ v, i = .wrd v ∧ s.addr = 0x004 := by
  by_cases hr : isRegWrite i = true
  · rw [body_eq_regOp hr]
    rcases regOp_status i s with h | h
    · exact .inl h
    · exact .inr (.inr (.inr (.inl h)))
  cases i with
  | wra | wra2 | rd | reset => exact .inl rfl
  | wrd v =>
    rcases regWrite_status s.addr v s with h | h
    · exact .inl h
    · exact .inr (.inr (.inr (.inr ⟨v, rfl, h⟩)))
  | texp0 => exact .inr (.inl rfl)
  | texp1 => exact .inr (.inr (.inl rfl))
  | tick => exact .inl (TickFrame.tickSteps s).status
  | peakclr => exact .inl (TickFrame.clearPeaks s).status
  | _ => exact absurd rfl hr

end Sys2Proof.Machine
end

section
/-! SUPPORT. Which commands move an operator between the phases of its envelope. -/

namespace Sys2Proof.Machine

/-- What a command that is neither `TICK` nor `RESET` can do to phase and key mask; `A` is what an entry into attack
needs of the command, `R` what an entry into release or a change of the mask needs. -/
structure PhaseMove (A R : Prop) (p q : Op) : Prop where
  att : q.phase = .att → p.phase ≠ .att → A ∧ p.key = 0 ∧ q.key ≠ 0 ∧ q.cnt = 0
  rel : q.phase = .rel → p.phase ≠ .rel → R ∧ q.key = 0
  fall : q.phase = .dec ∨ q.phase = .sus → p.phase = q.phase
  off : q.phase = .off → p.phase = .off
  key : q.key = p.key ∨ R

namespace PhaseMove

variable {A R : Prop} {p q : Op}

/-- An operator whose phase stays. -/
theorem of_phase (phase : q.phase = p.phase) (key : q.key = p.key ∨ R) : PhaseMove A R p q where
  att e n := absurd (phase ▸ e) n
  rel e n := absurd (phase ▸ e) n
  fall _ := phase.symm
  off e := phase ▸ e
  key := key

/-- An operator that enters release with an empty mask. -/
theorem of_release (phase : q.phase = .rel) (key : q.key = 0) (r : R) : PhaseMove A R p q where
  att e := by rw [phase] at e; cases e
  rel _ _ := ⟨r, key⟩
  fall e := by rw [phase] at e; rcases e with e | e <;> cases e
  off e := by rw [phase] at e; cases e
  key := .inr r

theorem of_eq (h : q = p) : PhaseMove A R p q := .of_phase (by rw [h]) (.inl (by rw [h]))

theorem of_dynamics (dyn : q.dynamics = p.dynamics) : PhaseMove A R p q :=
  .of_phase (congrArg (·.phase) dyn) (.inl (congrArg (·.key) dyn))

theorem keyOn {b : BitVec 3} (hb : b ≠ 0) (a : A) (r : R) (p : Op) : PhaseMove A R p (keyOn b p) := by
  rw [keyOn_spec]
  by_cases k : p.key = 0
  · rw [if_pos k, if_pos k, k, show (0 : BitVec 3) ||| b = b from BitVec.zero_or]
    exact ⟨fun _ _ => ⟨a, k, hb, rfl⟩, (nomatch ·), (by rcases · with e | e <;> cases e), (nomatch ·), .inr r⟩
  · rw [if_neg k, if_neg k]
    exact .of_phase rfl (.inr r)

theorem keyOff (b : BitVec 3) (r : R) (p : Op) : PhaseMove A R p (keyOff b p) := by
  rw [keyOff_spec]
  split
  · next e => exact .of_release rfl e.2.1 r
  · exact .of_phase rfl (.inr r)

/-- Keyed on and at once off by the CSM mechanism, an operator that no source held is released, any other keeps its
phase or is released (60_exceptions.md R369). -/
theorem csm (r : R) (p : Op) : PhaseMove A R p (Machine.keyOff keyBitCsm (Machine.keyOn keyBitCsm p)) := by
  rw [keyOff_spec, keyOn_spec]
  by_cases k : p.key = 0
  · refine .of_release (if_pos ?_) ?_ r
    all_goals simp [k, keyBitCsm]
  · rw [if_neg k, if_neg k]
    dsimp only
    split
    · next e => exact .of_release rfl e.2.1 r
    · exact .of_phase rfl (.inr r)

/-- A register write moves an operator only by a key event of a key write. -/
theorem write {x : Variant} {keys : Bool} (w : OpWrite x keys p q) (a : keys = true → A) (r : keys = true → R) :
    PhaseMove A R p q := by
  cases w with
  | fields _ dyn _ => exact .of_dynamics dyn
  | key on b hk hb =>
    have nonzero : b ≠ 0 := by rcases hb with rfl | rfl <;> decide
    cases on
    · exact keyOff b (r hk) p
    · exact keyOn nonzero (a hk) (r hk) p

end PhaseMove

/-- The commands that can bring an operator into attack. -/
def attacks (i : Instr) : Prop := isKeyWrite i = true ∨ ∃ v, i = .wrd v

/-- The commands that can release an operator or change a key mask. -/
def releases (i : Instr) : Prop := isKeyWrite i = true ∨ i = .texp0 ∨ ∃ v, i = .wrd v

theorem body_phaseMove {i : Instr} (ht : i ≠ .tick) (s : State) (o : OpRef) :
    PhaseMove (attacks i) (releases i) (s.op o) ((body i s).op o) := by
  by_cases hr : isRegWrite i = true
  · rw [body_eq_regOp hr]
    exact .write (regOp_op i s o) .inl .inl
  cases i with
  | wra | wra2 | rd | reset => exact .of_eq rfl
  | wrd v =>
    change PhaseMove _ _ _ ((regWrite s.addr v s).op o)
    unfold regWrite
    split
    · exact .write (regOp_op _ s o) (fun _ => .inr ⟨v, rfl⟩) fun _ => .inr (.inr ⟨v, rfl⟩)
    · exact .of_eq rfl
  | texp0 =>
    change PhaseMove _ _ _ ((csmKeys (irqSet flagTimer1 s)).op o)
    have flags : (irqSet flagTimer1 s).op o = s.op o := by rw [irqSet_frame]; rfl
    rcases csmKeys_op (irqSet flagTimer1 s) o with e | e <;> rw [e, flags]
    · exact .of_eq rfl
    · exact .csm (.inr (.inl rfl)) _
  | texp1 => exact .of_eq (by change (irqSet flagTimer2 s).op o = s.op o; rw [irqSet_frame]; rfl)
  | tick => exact absurd rfl ht
  | peakclr => exact .of_eq (clearPeaks_op s o)
  | _ => exact absurd rfl hr

end Sys2Proof.Machine
end

section
/-! SUPPORT. Masters, slaves and the roles of the channels (10_state.md R46 to R48, 44_channel_router.md R231). -/

namespace Sys2Proof.Machine

/-- The pair-low channels with their positions (10_state.md R46). -/
theorem pairIndex_eq_some_iff (c : Chan) (i : Nat) :
    pairIndex c = some i ↔ (c.val, i) ∈ [(0, 0), (1, 1), (2, 2), (9, 3), (10, 4), (11, 5)] := by
  unfold pairIndex
  simp only [List.mem_cons, Prod.mk.injEq, List.not_mem_nil, or_false]
  split
  · rw [Option.some.injEq]; omega
  · split
    · rw [Option.some.injEq]; omega
    · simp only [reduceCtorEq, false_iff]; omega

theorem extOf_iff (s : State) (c : Chan) :
    extOf s c = true ↔ ∃ i, pairIndex c = some i ∧ s.glob.ext.getLsbD i = true := by
  unfold extOf
  cases pairIndex c with
  | none => simp
  | some i => simp

theorem isMaster_iff (s : State) (c : Chan) :
    isMaster s c = true ↔ s.cfg.variant = .v2 ∧ s.glob.new = true ∧ extOf s c = true := by
  unfold isMaster
  rw [Bool.and_eq_true, Bool.and_eq_true, beq_iff_eq, and_assoc]

/-- A master is a pair-low channel. -/
theorem isMaster_pairLow {s : State} {c : Chan} (h : isMaster s c = true) :
    c.val < 3 ∨ (9 ≤ c.val ∧ c.val < 12) := by
  obtain ⟨-, -, ext⟩ := (isMaster_iff s c).mp h
  obtain ⟨i, hi, -⟩ := (extOf_iff s c).mp ext
  unfold pairIndex at hi
  split at hi
  · exact .inl ‹_›
  · split at hi
    · exact .inr ‹_›
    · cases hi

/-- A pair-low channel is no pair-high channel. -/
theorem pairLow_of_isMaster {s : State} {c : Chan} (h : isMaster s c = true) : pairLow c = none := by
  have := isMaster_pairLow h
  unfold pairLow
  rw [if_neg (by omega)]

/-- A pair-high channel is three above its pair-low channel. -/
theorem val_of_pairLow {c m : Chan} (h : pairLow c = some m) : c.val = m.val + 3 := by
  unfold pairLow at h
  split at h
  · cases h; dsimp only; omega
  · cases h

/-- The channel three above a master is its pair-high channel. -/
theorem pairLow_of_val {s : State} {c m : Chan} (h : isMaster s m = true) (hc : c.val = m.val + 3) :
    pairLow c = some m := by
  have := isMaster_pairLow h
  unfold pairLow
  rw [if_pos (by omega), Option.some.injEq, Fin.ext_iff]
  dsimp only
  omega

/-- A slave is the channel three above a master. -/
theorem isSlave_iff (s : State) (c : Chan) :
    isSlave s c = true ↔ ∃ m : Chan, isMaster s m = true ∧ c.val = m.val + 3 := by
  constructor
  · intro h
    unfold isSlave at h
    split at h
    · next m e => exact ⟨m, h, val_of_pairLow e⟩
    · cases h
  · rintro ⟨m, hm, hc⟩
    unfold isSlave
    rw [pairLow_of_val hm hc]
    exact hm

/-- A slave uses the frequency code of its master. -/
theorem fsrc_of_master {s : State} {c m : Chan} (h : isMaster s m = true) (hc : c.val = m.val + 3) : fsrc s c = m := by
  unfold fsrc
  rw [pairLow_of_val h hc]
  exact if_pos h

/-- A channel that is no slave uses its own frequency code. -/
theorem fsrc_of_not_slave {s : State} {c : Chan} (h : isSlave s c = false) : fsrc s c = c := by
  unfold fsrc
  split
  · next m e =>
    refine if_neg fun hm => ?_
    rw [(isSlave_iff s c).mpr ⟨m, hm, val_of_pairLow e⟩] at h
    cases h
  · rfl

theorem isSlave_of_isMaster {s : State} {c : Chan} (h : isMaster s c = true) : isSlave s c = false := by
  unfold isSlave
  rw [pairLow_of_isMaster h]

theorem role_rhythm_iff (s : State) (c : Chan) : role s c = .rhythm ↔ s.glob.rhy = true ∧ 6 ≤ c.val ∧ c.val ≤ 8 := by
  unfold role
  split
  · next h => exact ⟨fun _ => h, fun _ => rfl⟩
  · next h =>
    refine ⟨fun e => ?_, fun k => absurd k h⟩
    split at e
    · cases e
    · split at e <;> cases e

/-- The channels 6 to 8 are in no pair. -/
theorem not_rhythm_of_isMaster {s : State} {c : Chan} (h : isMaster s c = true) :
    ¬ (s.glob.rhy = true ∧ 6 ≤ c.val ∧ c.val ≤ 8) := by
  have := isMaster_pairLow h
  rintro ⟨-, lo, hi⟩
  omega

theorem not_rhythm_of_isSlave {s : State} {c : Chan} (h : isSlave s c = true) :
    ¬ (s.glob.rhy = true ∧ 6 ≤ c.val ∧ c.val ≤ 8) := by
  obtain ⟨m, hm, hc⟩ := (isSlave_iff s c).mp h
  have := isMaster_pairLow hm
  rintro ⟨-, lo, hi⟩
  omega

theorem role_master_iff (s : State) (c : Chan) : role s c = .master ↔ isMaster s c = true := by
  constructor
  · intro e
    unfold role at e
    split at e
    · cases e
    · split at e
      · assumption
      · split at e <;> cases e
  · intro h
    unfold role
    rw [if_neg (not_rhythm_of_isMaster h), if_pos h]

theorem role_slave_iff (s : State) (c : Chan) : role s c = .slave ↔ isSlave s c = true := by
  constructor
  · intro e
    unfold role at e
    split at e
    · cases e
    · split at e
      · cases e
      · split at e
        · assumption
        · cases e
  · intro h
    have : ¬ isMaster s c = true := fun k => by rw [isSlave_of_isMaster k] at h; cases h
    unfold role
    rw [if_neg (not_rhythm_of_isSlave h), if_neg this, if_pos h]

end Sys2Proof.Machine
end

section
/-! SUPPORT. The derived values as arithmetic on the fields, and their ranges (10_state.md R49 to R56,
43_operator_output.md R210, 46_lfo_noise.md R273). -/

namespace Sys2Proof.Machine

/-- Two fields side by side as a number. -/
theorem toNat_append_eq {n m : Nat} (a : BitVec n) (b : BitVec m) : (a ++ b).toNat = 2 ^ m * a.toNat + b.toNat := by
  rw [BitVec.toNat_append, ← Nat.shiftLeft_add_eq_or_of_lt b.isLt, Nat.shiftLeft_eq, Nat.mul_comm]

/-- A bit as a number. -/
theorem toNat_ofBool_getLsbD {n : Nat} (a : BitVec n) (i : Nat) :
    (BitVec.ofBool (a.getLsbD i)).toNat = a.toNat / 2 ^ i % 2 := by
  rw [BitVec.toNat_ofBool, BitVec.getLsbD, Nat.testBit_eq_decide_div_mod_eq]
  rcases Nat.mod_two_eq_zero_or_one (a.toNat / 2 ^ i) with h | h <;> rw [h] <;> rfl

theorem blockFnum_toNat (s : State) (c : Chan) :
    (blockFnum s c).toNat = 1024 * (s.chan (fsrc s c)).block.toNat + (s.chan (fsrc s c)).fnum.toNat :=
  toNat_append_eq _ _

theorem kcode_toNat (s : State) (c : Chan) :
    (kcode s c).toNat = 2 * ((blockFnum s c).toNat / 1024) +
      (if s.glob.nts then (blockFnum s c).toNat / 256 % 2 else (blockFnum s c).toNat / 512 % 2) := by
  have block : ((blockFnum s c).extractLsb' 10 3).toNat = (blockFnum s c).toNat / 1024 := by
    rw [BitVec.extractLsb'_toNat, Nat.shiftRight_eq_div_pow]
    have := (blockFnum s c).isLt
    omega
  unfold kcode
  rw [toNat_append_eq, block]
  cases s.glob.nts
  · exact congrArg (_ + ·) (toNat_ofBool_getLsbD _ 9)
  · exact congrArg (_ + ·) (toNat_ofBool_getLsbD _ 8)

theorem ksr_eq (s : State) (o : OpRef) :
    ksr s o = if (s.op o).ksr then (kcode s o.ch).toNat else (kcode s o.ch).toNat / 4 := by
  unfold ksr
  rw [Nat.shiftRight_eq_div_pow]

theorem tll_eq (s : State) (o : OpRef) :
    tll s o = 4 * (s.op o).tl.toNat +
      kslTab s.cfg ((blockFnum s o.ch).toNat / 64) / 2 ^ kslShift s.cfg (s.op o).ksl := by
  have row : ((blockFnum s o.ch).extractLsb' 6 7).toNat = (blockFnum s o.ch).toNat / 64 := by
    rw [BitVec.extractLsb'_toNat, Nat.shiftRight_eq_div_pow]
    have := (blockFnum s o.ch).isLt
    omega
  unfold tll
  rw [row, Nat.shiftLeft_eq, Nat.shiftRight_eq_div_pow, Nat.mul_comm]

theorem rate_eq (x : BitVec 4) : rate x = if x.toNat = 0 then 0 else 16 + 4 * x.toNat := by
  unfold rate
  simp only [← BitVec.toNat_inj]
  rfl

theorem egPar_attack (s : State) (o : OpRef) :
    egPar s o .attack =
      if scaledRate s o .attack < (match s.cfg.variant with | .v1 => 78 | .v2 => 76) then
        (rateShift s.cfg (scaledRate s o .attack), rateSelect s.cfg (scaledRate s o .attack)) else (0, 13) := by
  change (if EgRate.attack = .attack ∧ arInstant s.cfg.variant ≤ scaledRate s o .attack then _ else _) = _
  have instant : arInstant s.cfg.variant = (match s.cfg.variant with | .v1 => 78 | .v2 => 76) := by
    cases s.cfg.variant <;> rfl
  rw [← instant]
  by_cases h : arInstant s.cfg.variant ≤ scaledRate s o .attack
  · rw [if_pos ⟨rfl, h⟩, if_neg (by omega)]
  · rw [if_neg fun e => h e.2, if_pos (by omega)]

theorem lfoAm_eq (s : State) :
    lfoAm s = (let v := lfoAmTab s.cfg (s.gens.lfoAmCnt.toNat / 2 ^ 24); if s.glob.dam then v else v / 4) := by
  unfold lfoAm
  dsimp only
  rw [Nat.shiftRight_eq_div_pow, Nat.shiftRight_eq_div_pow]

/-! ### Ranges -/

/-- The bounds of the key-scale and the tremolo table (40_tables.md R153). -/
theorem ksl_lfoAm_rows {cfg : Config} (h : boundedConfig cfg = true) :
    cfg.tables.ksl.all (·.all (· ≤ 224)) = true ∧ cfg.tables.lfoAm.all (·.all (· ≤ 26)) = true := by
  simp only [boundedConfig, tablesBounded, Bool.and_eq_true] at h
  obtain ⟨⟨⟨⟨⟨⟨⟨⟨-, ksl⟩, -⟩, -⟩, -⟩, am⟩, -⟩, -⟩, -⟩ := h
  exact ⟨ksl, am⟩

theorem kslTab_bounded {cfg : Config} (h : boundedConfig cfg = true) (k : Nat) : kslTab cfg k ≤ 224 :=
  rows16_le (ksl_lfoAm_rows h).1 k

theorem lfoAmTab_bounded {cfg : Config} (h : boundedConfig cfg = true) (k : Nat) : lfoAmTab cfg k ≤ 26 :=
  rows16_le (ksl_lfoAm_rows h).2 k

theorem ksr_le (s : State) (o : OpRef) : ksr s o ≤ 15 := by
  have := (kcode s o.ch).isLt
  rw [ksr_eq]
  split <;> omega

theorem rate_le (x : BitVec 4) : rate x ≤ 76 := by
  have := x.isLt
  rw [rate_eq]
  split <;> omega

/-- A scaled rate indexes a table of 96 entries (10_state.md R56). -/
theorem scaledRate_le (s : State) (o : OpRef) (which : EgRate) : scaledRate s o which ≤ 91 := by
  have key := ksr_le s o
  cases which
  · exact Nat.add_le_add (rate_le _) key
  · exact Nat.add_le_add (rate_le _) key
  · exact Nat.add_le_add (rate_le _) key

theorem tll_le {s : State} (h : boundedConfig s.cfg = true) (o : OpRef) : tll s o ≤ 476 := by
  have level := (s.op o).tl.isLt
  have scale := Nat.le_trans (Nat.div_le_self (kslTab s.cfg ((blockFnum s o.ch).toNat / 64))
    (2 ^ kslShift s.cfg (s.op o).ksl)) (kslTab_bounded h _)
  rw [tll_eq]
  omega

theorem lfoAm_le {s : State} (h : boundedConfig s.cfg = true) : lfoAm s ≤ 26 := by
  have entry := lfoAmTab_bounded h (s.gens.lfoAmCnt.toNat / 2 ^ 24)
  rw [lfoAm_eq]
  dsimp only
  split <;> omega

/-- The combined attenuation: 252 + 224 + 511 + 26 (10_state.md R42). -/
theorem env_le {s : State} (h : boundedConfig s.cfg = true) (o : OpRef) : env s o ≤ 1013 := by
  have fixed := tll_le h o
  have vol := (s.op o).vol.isLt
  have tremolo := lfoAm_le h
  unfold env
  split <;> omega

end Sys2Proof.Machine
end

section
/-! SUPPORT. The invariants of `SafeState` part by part: an operator, the status byte, the channels. -/

namespace Sys2Proof.Machine

/-! ### Operators -/

/-- The invariants of an operator of a variant. -/
structure OpOk (x : Variant) (p : Op) : Prop where
  safe  : OpSafe p
  waves : x = .v1 → p.wave.toNat < 4 ∧ p.wsReg.toNat < 4

/-- A key event leaves attenuation, feedback and waveform, and its phase is the old one, attack or release. -/
structure KeyMove (p q : Op) : Prop where
  vol   : q.vol = p.vol
  fb0   : q.fb0 = p.fb0
  fb1   : q.fb1 = p.fb1
  wave  : q.wave = p.wave
  wsReg : q.wsReg = p.wsReg
  phase : q.phase = p.phase ∨ q.phase = .att ∨ q.phase = .rel

theorem KeyMove.trans {p q r : Op} (h : KeyMove p q) (k : KeyMove q r) : KeyMove p r where
  vol := k.vol.trans h.vol
  fb0 := k.fb0.trans h.fb0
  fb1 := k.fb1.trans h.fb1
  wave := k.wave.trans h.wave
  wsReg := k.wsReg.trans h.wsReg
  phase := by
    rcases k.phase with e | e
    · rw [e]; exact h.phase
    · exact .inr e

theorem KeyMove.keyOn (b : BitVec 3) (p : Op) : KeyMove p (keyOn b p) := by
  rw [keyOn_spec]
  refine ⟨rfl, rfl, rfl, rfl, rfl, ?_⟩
  dsimp only
  split
  · exact .inr (.inl rfl)
  · exact .inl rfl

theorem KeyMove.keyOff (b : BitVec 3) (p : Op) : KeyMove p (keyOff b p) := by
  rw [keyOff_spec]
  refine ⟨rfl, rfl, rfl, rfl, rfl, ?_⟩
  dsimp only
  split
  · exact .inr (.inr rfl)
  · exact .inl rfl

theorem keyOn_key (b : BitVec 3) (p : Op) : (keyOn b p).key = p.key ||| b := by rw [keyOn_spec]

theorem keyOff_key (b : BitVec 3) (p : Op) : (keyOff b p).key = p.key &&& ~~~b := by rw [keyOff_spec]

/-- A key event keeps the invariants of an operator if it leaves the bit of the CSM mechanism clear. -/
theorem OpOk.of_keyMove {x : Variant} {p q : Op} (h : OpOk x p) (k : KeyMove p q) (csm : q.key.getLsbD 2 = false) :
    OpOk x q where
  safe := {
    off_vol := fun e => by
      rcases k.phase with f | f | f
      · rw [k.vol, h.safe.off_vol (f ▸ e)]
      · rw [f] at e; cases e
      · rw [f] at e; cases e
    dec_vol := fun e => by
      rcases k.phase with f | f | f
      · rw [k.vol]; exact h.safe.dec_vol (f ▸ e)
      · rw [f] at e; cases e
      · rw [f] at e; cases e
    fb0_le := by rw [k.fb0]; exact h.safe.fb0_le
    fb1_le := by rw [k.fb1]; exact h.safe.fb1_le
    key_csm := csm }
  waves e := by rw [k.wave, k.wsReg]; exact h.waves e

theorem OpOk.keyEvent {x : Variant} {p : Op} (h : OpOk x p) (on : Bool) {b : BitVec 3} (hb : b.getLsbD 2 = false) :
    OpOk x (keyEvent on b p) := by
  have k := h.safe.key_csm
  cases on
  · refine h.of_keyMove (.keyOff b p) ?_
    change (keyOff b p).key.getLsbD 2 = false
    rw [keyOff_key, BitVec.getLsbD_and, k]; rfl
  · refine h.of_keyMove (.keyOn b p) ?_
    change (keyOn b p).key.getLsbD 2 = false
    rw [keyOn_key, BitVec.getLsbD_or, k, hb]; rfl

/-- The CSM mechanism clears its bit again. -/
theorem OpOk.csm {x : Variant} {p : Op} (h : OpOk x p) : OpOk x (keyOff keyBitCsm (keyOn keyBitCsm p)) := by
  refine h.of_keyMove (.trans (.keyOn _ p) (.keyOff _ _)) ?_
  rw [keyOff_key, BitVec.getLsbD_and]
  exact Bool.and_false _

/-- The invariants of an operator are about its waveform and its dynamic state. -/
theorem OpOk.of_dynamics {x : Variant} {p q : Op} (h : OpOk x p) (dyn : q.dynamics = p.dynamics)
    (waves : x = .v1 → q.wave.toNat < 4 ∧ q.wsReg.toNat < 4) : OpOk x q := by
  have phase : q.phase = p.phase := congrArg (·.phase) dyn
  have vol : q.vol = p.vol := congrArg (·.vol) dyn
  have key : q.key = p.key := congrArg (·.key) dyn
  have fb0 : q.fb0 = p.fb0 := congrArg (·.fb0) dyn
  have fb1 : q.fb1 = p.fb1 := congrArg (·.fb1) dyn
  have safe := h.safe
  refine ⟨⟨?_, ?_, ?_, ?_, ?_⟩, waves⟩
  · rw [phase, vol]; exact safe.off_vol
  · rw [phase, vol]; exact safe.dec_vol
  · rw [fb0]; exact safe.fb0_le
  · rw [fb1]; exact safe.fb1_le
  · rw [key]; exact safe.key_csm

theorem lowWave_lt (ws : BitVec 3) : (lowWave ws).toNat < 4 := by revert ws; decide

theorem OpOk.write {x : Variant} {keys : Bool} {p q : Op} (h : OpOk x p) (w : OpWrite x keys p q) : OpOk x q := by
  cases w with
  | fields _ dyn waves =>
    refine h.of_dynamics dyn fun e => ?_
    rcases waves e with ⟨a, b⟩ | ⟨ws, a, b⟩
    · rw [a, b]; exact h.waves e
    · rw [a, b]; exact ⟨lowWave_lt ws, lowWave_lt ws⟩
  | key on b _ hb =>
    refine h.keyEvent on ?_
    rcases hb with rfl | rfl <;> rfl

/-! ### The status byte -/

/-- The consistent status bytes: no flag, or the line with one flag or both. -/
def okBytes : List Byte := [0x00, 0xC0, 0xA0, 0xE0]

theorem statusOk_iff (st : Byte) : statusOk st = true ↔ st ∈ okBytes := by
  revert st; decide +kernel

/-- The status byte after the flags `f` were set under a mask (60_exceptions.md R364). -/
def setFlags (mask f st : Byte) : Byte :=
  let st := st ||| (f &&& ~~~mask &&& flagsBoth)
  if st.getLsbD 7 = false ∧ st &&& flagsBoth ≠ 0 then st ||| 0x80 else st

/-- The status byte after the flags `f` were cleared (60_exceptions.md R365). -/
def clearFlags (f st : Byte) : Byte :=
  let st := st &&& ~~~f
  if st.getLsbD 7 = true ∧ st &&& flagsBoth = 0 then st &&& 0x7F else st

theorem irqSet_status (f : Byte) (s : State) : (irqSet f s).status = setFlags (maskBits s.glob) f s.status := by
  unfold irqSet setFlags; dsimp only; split <;> rfl

theorem irqClear_status (f : Byte) (s : State) : (irqClear f s).status = clearFlags f s.status := by
  unfold irqClear clearFlags; dsimp only; split <;> rfl

/-- Setting timer flags, masked or not, keeps the status byte consistent. -/
theorem irqSet_statusOk {f : Byte} (hf : f = flagTimer1 ∨ f = flagTimer2) {s : State} (h : statusOk s.status = true) :
    statusOk (irqSet f s).status = true := by
  have table : ∀ st ∈ okBytes, ∀ a b : Bool,
      statusOk (setFlags (0#1 ++ bit a ++ bit b ++ 0#5) flagTimer1 st) = true ∧
      statusOk (setFlags (0#1 ++ bit a ++ bit b ++ 0#5) flagTimer2 st) = true := by decide
  obtain ⟨one, two⟩ := table _ ((statusOk_iff _).mp h) s.glob.mt1 s.glob.mt2
  rw [irqSet_status]
  rcases hf with rfl | rfl
  · exact one
  · exact two

/-- Clearing timer flags keeps the status byte consistent. -/
theorem irqClear_statusOk (a b : Bool) {s : State} (h : statusOk s.status = true) :
    statusOk (irqClear (0#1 ++ bit a ++ bit b ++ 0#5) s).status = true := by
  have table : ∀ st ∈ okBytes, ∀ a b : Bool, statusOk (clearFlags (0#1 ++ bit a ++ bit b ++ 0#5) st) = true := by
    decide
  rw [irqClear_status]
  exact table _ ((statusOk_iff _).mp h) a b

theorem writeTctl_statusOk (rst mt1 mt2 st2 st1 : Bool) {s : State} (h : statusOk s.status = true) :
    statusOk (writeTctl rst mt1 mt2 st2 st1 s).status = true := by
  rw [writeTctl_status]
  cases rst
  · exact irqClear_statusOk mt1 mt2 h
  · exact irqClear_statusOk true true h

theorem regOp_statusOk (i : Instr) {s : State} (h : statusOk s.status = true) : statusOk (regOp i s).status = true := by
  rcases regOp_status i s with e | ⟨rst, mt1, mt2, st2, st1, rfl⟩
  · rw [e]; exact h
  · exact writeTctl_statusOk _ _ _ _ _ h

theorem csmKeys_status (s : State) : (csmKeys s).status = s.status := by
  unfold csmKeys
  split
  · exact mapChans_status _ _
  · rfl

/-! ### Safe states -/

/-- The invariants of a channel of a variant. -/
structure ChanOk (x : Variant) (c : Chan) (ch : Channel) : Prop where
  chanout_le : ch.chanout.toInt.natAbs ≤ busBound c
  peak_le    : ch.peak.toNat ≤ busBound c
  ops        : ∀ sl, OpOk x (ch.op sl)

namespace SafeState

variable {s t : State}

theorem op_ok (h : SafeState s) (o : OpRef) : OpOk s.cfg.variant (s.op o) where
  safe := match o with
    | ⟨c, .one⟩ => (h.chans_safe c).slot1
    | ⟨c, .two⟩ => (h.chans_safe c).slot2
  waves e := h.v1_wave e o

theorem chan_ok (h : SafeState s) (c : Chan) : ChanOk s.cfg.variant c (s.chan c) :=
  ⟨(h.chans_safe c).chanout_le, (h.chans_safe c).peak_le, fun sl => h.op_ok ⟨c, sl⟩⟩

/-- A state that differs from a safe one in outputs, global fields, status byte and channels is safe when its status byte
and its channels are. -/
theorem of_chans (h : SafeState s) (same : t = { s with out := t.out, glob := t.glob, status := t.status, chans := t.chans })
    (status : statusOk t.status = true) (present : ∀ c, s.hasChan c = true → ChanOk s.cfg.variant c (t.chan c))
    (absent : ∀ c, s.hasChan c = false → t.chan c = s.chan c) : SafeState t := by
  have cfg : t.cfg = s.cfg := by rw [same]
  have gens : t.gens = s.gens := by rw [same]
  have hasChan : ∀ c, t.hasChan c = s.hasChan c := fun c => by unfold State.hasChan; rw [cfg]
  have ok : ∀ c, ChanOk s.cfg.variant c (t.chan c) := fun c => by
    cases hc : s.hasChan c
    · rw [absent c hc]; exact h.chan_ok c
    · exact present c hc
  exact {
    cfg_bounded := by rw [cfg]; exact h.cfg_bounded
    lfoAm_lt := by rw [gens]; exact h.lfoAm_lt
    noise_ne := by rw [gens]; exact h.noise_ne
    egTimer_lt := by rw [gens, cfg]; exact h.egTimer_lt
    status_ok := status
    mixL_lt := by rw [same]; exact h.mixL_lt
    mixR_lt := by rw [same]; exact h.mixR_lt
    chans_safe := fun c => ⟨(ok c).chanout_le, (ok c).peak_le, ((ok c).ops .one).safe, ((ok c).ops .two).safe⟩
    v1_bank := by rw [cfg, same]; exact h.v1_bank
    v1_wave := fun e o => ((ok o.ch).ops o.slot).waves (cfg ▸ e)
    absent_reset := fun c hc => by
      rw [hasChan] at hc
      rw [absent c hc]; exact h.absent_reset c hc }

theorem of_regFrame (h : SafeState s) (f : RegFrame s t) (status : statusOk t.status = true)
    (ops : ∀ o, OpOk s.cfg.variant (t.op o)) : SafeState t :=
  h.of_chans f.same status
    (fun c _ => ⟨by rw [f.chanout]; exact (h.chan_ok c).chanout_le, by rw [f.peak]; exact (h.chan_ok c).peak_le,
      fun sl => ops ⟨c, sl⟩⟩) f.absent

/-- A change of every channel that exists. -/
theorem mapChans (h : SafeState s) {f : Chan → Channel → Channel}
    (hf : ∀ c, ChanOk s.cfg.variant c (s.chan c) → ChanOk s.cfg.variant c (f c (s.chan c))) :
    SafeState (s.mapChans f) :=
  h.of_chans (by rw [mapChans_frame]) (by rw [mapChans_status]; exact h.status_ok)
    (fun c hc => by rw [mapChans_chan, if_pos hc]; exact hf c (h.chan_ok c))
    (fun c hc => by rw [mapChans_chan, hc]; rfl)

/-- The outputs of a command are free. -/
theorem with_out (h : SafeState s) (o : Output) : SafeState { s with out := o } :=
  h.of_chans rfl h.status_ok (fun c _ => h.chan_ok c) (fun _ _ => rfl)

theorem regOp (h : SafeState s) (i : Instr) : SafeState (regOp i s) :=
  h.of_regFrame (RegFrame.regOp i s) (regOp_statusOk i h.status_ok) fun o => (h.op_ok o).write (regOp_op i s o)

theorem regWrite (h : SafeState s) (a : BitVec 9) (v : Byte) : SafeState (regWrite a v s) := by
  unfold Machine.regWrite
  split
  · exact h.regOp _
  · exact h

theorem csmKeys (h : SafeState s) : SafeState (csmKeys s) :=
  h.of_regFrame (RegFrame.csmKeys s) (by rw [csmKeys_status]; exact h.status_ok) fun o => by
    rcases csmKeys_op s o with e | e
    · rw [e]; exact h.op_ok o
    · rw [e]; exact (h.op_ok o).csm

theorem irqSet (h : SafeState s) {f : Byte} (hf : f = flagTimer1 ∨ f = flagTimer2) : SafeState (irqSet f s) :=
  h.of_regFrame (RegFrame.irqSet f s) (irqSet_statusOk hf h.status_ok) fun o => by
    rw [irqSet_frame]; exact h.op_ok o

end SafeState

end Sys2Proof.Machine
end

section
/-! SUPPORT. Steps 1, 2 and 4 to 8 of a tick keep the invariants. -/

namespace Sys2Proof.Machine

/-! ### Step 1: the oscillators -/

/-- The tremolo counter stays below its bound (46_lfo_noise.md R271). -/
theorem lfoAmNext_lt {cfg : Config} (hc : boundedConfig cfg = true) {cnt : BitVec 32} (h : cnt.toNat < lfoAmWrap) :
    (lfoAmNext cfg cnt).toNat < lfoAmWrap := by
  have inc := lfoAmInc_le hc
  unfold lfoAmNext
  unfold lfoAmWrap at *
  dsimp only
  rw [BitVec.toNat_ofNat]
  refine Nat.lt_of_le_of_lt (Nat.mod_le _ _) ?_
  split <;> omega

theorem SafeState.lfoAdvance {s : State} (h : SafeState s) : SafeState (lfoAdvance s) :=
  { h with lfoAm_lt := lfoAmNext_lt h.cfg_bounded h.lfoAm_lt }

/-! ### Step 8: the noise generator -/

/-- The noise register never becomes 0: the exclusive-or brings a bit in, and without it bit 0 is clear
(46_lfo_noise.md R278). -/
theorem noiseStep_ne_zero {r : BitVec 23} (h : r ≠ 0) : noiseStep r ≠ 0 := by
  unfold noiseStep
  dsimp only
  split
  · intro e
    have top := congrArg (·.getLsbD 22) e
    simp at top
  · next odd =>
    intro e
    apply h
    apply BitVec.eq_of_getLsbD_eq
    intro i hi
    cases i with
    | zero => simpa using odd
    | succ i =>
      have bit := congrArg (·.getLsbD i) e
      have lo : i < 23 := by omega
      have up : i + 1 < 24 := by omega
      simpa [lo, up, Nat.add_comm] using bit

theorem SafeState.noiseAdvance {s : State} (h : SafeState s) : SafeState (noiseAdvance s) :=
  { h with noise_ne := repeat_keeps (P := fun r => r ≠ 0) (fun _ => noiseStep_ne_zero) _ h.noise_ne }

/-! ### Step 2: the buses are cleared -/

theorem clearOut_chan (s : State) (c : Chan) :
    (clearOut s).chan c = if s.hasChan c = true then { s.chan c with chanout := 0 } else s.chan c := by
  unfold clearOut; rw [mapChans_chan]

theorem SafeState.clearOut {s : State} (h : SafeState s) : SafeState (clearOut s) :=
  h.mapChans fun _ k => ⟨Nat.zero_le _, k.peak_le, k.ops⟩

/-- Every bus is 0 after step 2; that of an absent channel always is. -/
theorem SafeState.clearOut_chanout {s : State} (h : SafeState s) (c : Chan) : ((Machine.clearOut s).chan c).chanout = 0 := by
  rw [clearOut_chan]
  split
  · rfl
  · next hc => rw [h.absent_reset c (Bool.eq_false_iff.mpr hc)]; rfl

/-! ### Step 4: the mix -/

/-- A sum of integers is bounded by the sum of bounds of their magnitudes. -/
theorem natAbs_sum_le {α : Type} {f : α → Int} {b : α → Nat} {l : List α} (h : ∀ a ∈ l, (f a).natAbs ≤ b a) :
    (l.map f).sum.natAbs ≤ (l.map b).sum := by
  induction l with
  | nil => exact Nat.le_refl _
  | cons a l ih =>
    rw [List.map_cons, List.map_cons, List.sum_cons, List.sum_cons]
    have head := h a List.mem_cons_self
    have tail := ih fun x hx => h x (List.mem_cons_of_mem a hx)
    omega

/-- Leaving summands out does not raise a sum of natural numbers. -/
theorem sum_map_filter_le {α : Type} (b : α → Nat) (p : α → Bool) (l : List α) :
    ((l.filter p).map b).sum ≤ (l.map b).sum := by
  induction l with
  | nil => exact Nat.le_refl _
  | cons a l ih =>
    rw [List.map_cons, List.sum_cons, List.filter_cons]
    split
    · rw [List.map_cons, List.sum_cons]; exact Nat.add_le_add_left ih _
    · exact Nat.le_trans ih (Nat.le_add_left _ _)

/-- The buses that a mix adds sum up to less than `2^19` (10_state.md R42). -/
theorem busSum_lt {s : State} (h : SafeState s) (on : Channel → Bool) : (busSum s on).natAbs < 2 ^ 19 := by
  have each : ∀ c ∈ s.chanList, (if on (s.chan c) then (s.chan c).chanout.toInt else 0).natAbs ≤ busBound c := by
    intro c _
    split
    · exact (h.chans_safe c).chanout_le
    · exact Nat.zero_le _
  have all : (s.chanList.map busBound).sum ≤ (allChans.map busBound).sum := sum_map_filter_le _ _ _
  have total : (allChans.map busBound).sum = 163360 := by decide
  have sum : (busSum s on).natAbs ≤ (s.chanList.map busBound).sum := natAbs_sum_le each
  omega

/-- A number whose magnitude fits 32 bits is kept by the narrowing. -/
theorem toInt_ofInt_32 {x : Int} (h : x.natAbs < 2 ^ 31) : (BitVec.ofInt 32 x).toInt = x := by
  rw [BitVec.toInt_ofInt]
  exact Int.bmod_eq_of_le (by omega) (by omega)

theorem SafeState.mixStep {s : State} (h : SafeState s) : SafeState (mixStep s) := by
  have narrow : ∀ on, (BitVec.ofInt 32 (busSum s on)).toInt.natAbs < 2 ^ 19 := fun on => by
    have := busSum_lt h on
    rwa [toInt_ofInt_32 (by omega)]
  unfold Machine.mixStep
  split
  · exact { h with mixL_lt := narrow _, mixR_lt := narrow _ }
  · exact { h with mixL_lt := narrow _, mixR_lt := narrow _ }

/-! ### Step 5: the peaks -/

theorem SafeState.peakStep {s : State} (h : SafeState s) : SafeState (peakStep s) :=
  h.mapChans fun c k => by
    refine ⟨k.chanout_le, ?_, k.ops⟩
    dsimp only
    rw [BitVec.toNat_ofNat]
    exact Nat.le_trans (Nat.mod_le _ _) (Nat.max_le.mpr ⟨k.peak_le, k.chanout_le⟩)

theorem SafeState.clearPeaks {s : State} (h : SafeState s) : SafeState (clearPeaks s) :=
  h.mapChans fun _ k => ⟨k.chanout_le, Nat.zero_le _, k.ops⟩

/-! ### Step 6: the envelopes -/

/-- An envelope step that leaves `OFF` to full attenuation and `DEC` to at most 499 keeps the invariants of its operator. -/
theorem OpOk.of_envelope {x : Variant} {p : Op} (h : OpOk x p) {vol : BitVec 9} {phase : Phase}
    (off : phase = .off → vol = 511) (dec : phase = .dec → vol.toNat ≤ 499) :
    OpOk x { p with vol := vol, phase := phase } :=
  ⟨⟨off, dec, h.safe.fb0_le, h.safe.fb1_le, h.safe.key_csm⟩, h.waves⟩

section
variable {s : State} {o : OpRef} (h : SafeState s)
include h

theorem SafeState.attackStep (ph : (s.op o).phase = .att) : OpOk s.cfg.variant (attackStep s o) := by
  unfold Machine.attackStep
  dsimp only
  split
  · split
    · exact (h.op_ok o).of_envelope (fun e => nomatch e) fun _ => Nat.zero_le _
    · exact (h.op_ok o).of_envelope (fun e => nomatch ph ▸ e) fun e => nomatch ph ▸ e
  · exact h.op_ok o

/-- In decay the attenuation is at most 499; below the sustain level, at most 496, the operator stays in decay. -/
theorem SafeState.decayStep (ph : (s.op o).phase = .dec) : OpOk s.cfg.variant (decayStep s o) := by
  have vol := (h.op_ok o).safe.dec_vol ph
  have inc : ∀ sh sel, egIncOf s sh sel ≤ 8 := fun sh sel => egInc_bounded h.cfg_bounded sel _
  have sl := slEff_bounded h.cfg_bounded (s.op o).sl
  unfold Machine.decayStep
  dsimp only
  split
  · refine (h.op_ok o).of_envelope (fun e => ?_) (fun e => ?_)
    · split at e <;> cases e
    · split at e
      · cases e
      · next below =>
        rw [BitVec.toNat_ofNat]
        exact Nat.le_trans (Nat.mod_le _ _) (by omega)
  · exact h.op_ok o

theorem SafeState.sustainStep (ph : (s.op o).phase = .sus) : OpOk s.cfg.variant (sustainStep s o) := by
  unfold Machine.sustainStep
  dsimp only
  split
  · exact h.op_ok o
  · split
    · exact (h.op_ok o).of_envelope (fun e => nomatch ph ▸ e) fun e => nomatch ph ▸ e
    · exact h.op_ok o

theorem SafeState.releaseStep (ph : (s.op o).phase = .rel) : OpOk s.cfg.variant (releaseStep s o) := by
  unfold Machine.releaseStep
  dsimp only
  split
  · split
    · exact (h.op_ok o).of_envelope (fun _ => rfl) fun e => nomatch e
    · exact (h.op_ok o).of_envelope (fun e => nomatch ph ▸ e) fun e => nomatch ph ▸ e
  · exact h.op_ok o

theorem SafeState.egStep (o : OpRef) : OpOk s.cfg.variant (egStep s o) := by
  unfold Machine.egStep
  split
  · next ph => exact h.attackStep ph
  · next ph => exact h.decayStep ph
  · next ph => exact h.sustainStep ph
  · next ph => exact h.releaseStep ph
  · exact h.op_ok o

theorem SafeState.egTick : SafeState (egTick s) := by
  have counted : SafeState { s with gens := { s.gens with egCnt := s.gens.egCnt + 1 } } := { h with }
  unfold Machine.egTick
  exact counted.mapChans fun c k => ⟨k.chanout_le, k.peak_le, fun sl => by
    rw [mapOps_op]; exact counted.egStep ⟨c, sl⟩⟩

/-- The accumulated time that is left is below `EG_OVF` (48_sample_tick.md R345). -/
theorem SafeState.egAdvance : SafeState (egAdvance s) := by
  have pos := egOvf_pos h.cfg_bounded
  refine repeat_keeps (fun _ k => SafeState.egTick k) _ { h with egTimer_lt := ?_ }
  dsimp only
  rw [BitVec.toNat_ofNat]
  exact Nat.lt_of_le_of_lt (Nat.mod_le _ _) (Nat.mod_lt _ pos)

/-! ### Step 7: the accumulators -/

theorem SafeState.phaseAdvance : SafeState (phaseAdvance s) :=
  h.mapChans fun c k => ⟨k.chanout_le, k.peak_le, fun sl => by
    rw [mapOps_op]
    have ok := h.op_ok ⟨c, sl⟩
    exact ⟨{ ok.safe with }, ok.waves⟩⟩

theorem SafeState.advanceSteps : SafeState (advanceSteps s) :=
  h.peakStep.egAdvance.phaseAdvance.noiseAdvance

end

end Sys2Proof.Machine
end

section
/-! SUPPORT. Step 3 of a tick keeps the invariants: every bus is written by one channel's contribution, and no contribution
exceeds the bound of the bus (10_state.md R42, 44_channel_router.md R239, 45_rhythm.md R258). With it, every step keeps them. -/

namespace Sys2Proof.Machine

/-! ### The output of an operator -/

theorem expOut_natAbs_le {cfg : Config} (h : boundedConfig cfg = true) (p : Nat) : (expOut cfg p).natAbs ≤ 4084 := by
  have entry : expTab cfg (p / 2 % 256) >>> (p >>> 9) ≤ 4084 := by
    rw [Nat.shiftRight_eq_div_pow]
    exact Nat.le_trans (Nat.div_le_self _ _) (exp_bounded h _)
  unfold expOut
  split
  · exact Nat.zero_le _
  · generalize expTab cfg (p / 2 % 256) >>> (p >>> 9) = m at entry
    dsimp only
    split <;> omega

theorem opAt_natAbs_le {s : State} (h : boundedConfig s.cfg = true) (o : OpRef) (x : Int) : (opAt s o x).natAbs ≤ 4084 := by
  unfold opAt
  split
  · exact expOut_natAbs_le h _
  · exact Nat.zero_le _

theorem slotN_natAbs_le {s : State} (h : boundedConfig s.cfg = true) (o : OpRef) (pm : Int) :
    (slotN s o pm).natAbs ≤ 4084 := opAt_natAbs_le h o _

/-- An output fits the 14 bits of a feedback cell. -/
theorem toInt_ofInt_14_natAbs_le {x : Int} (h : x.natAbs ≤ 4084) : (BitVec.ofInt 14 x).toInt.natAbs ≤ 4084 := by
  rw [BitVec.toInt_ofInt, Int.bmod_eq_of_le (by omega) (by omega)]
  exact h

/-! ### What a contribution needs and keeps -/

/-- What the contribution of a channel relies on. -/
structure RouterOk (s : State) : Prop where
  cfg : boundedConfig s.cfg = true
  fb0 : ∀ o, (s.op o).fb0.toInt.natAbs ≤ 4084
  fb1 : ∀ o, (s.op o).fb1.toInt.natAbs ≤ 4084

/-- To bus `d` at most `b d` in magnitude was added. -/
def Adds (b : Chan → Nat) (s t : State) : Prop :=
  ∀ d, ∃ x : Int, x.natAbs ≤ b d ∧ (t.chan d).chanout = (s.chan d).chanout + BitVec.ofInt 32 x

/-- A contribution that relies on nothing more than it keeps and adds at most `b`. -/
structure Contributes (b : Chan → Nat) (s t : State) : Prop where
  ok     : RouterOk t
  frame  : BusFrame s t
  absent : ∀ c, s.hasChan c = false → t.chan c = s.chan c
  adds   : Adds b s t

/-- The bound that is `n` on bus `c` and 0 on the others. -/
def onBus (c : Chan) (n : Nat) : Chan → Nat := fun d => if d = c then n else 0

namespace Contributes

variable {a b : Chan → Nat} {s t u : State}

theorem refl (h : RouterOk s) : Contributes (fun _ => 0) s s :=
  ⟨h, BusFrame.refl s, fun _ _ => rfl, fun _ => ⟨0, Nat.le_refl _, by simp⟩⟩

theorem trans (h : Contributes a s t) (k : Contributes b t u) : Contributes (fun d => a d + b d) s u where
  ok := k.ok
  frame := h.frame.trans k.frame
  absent c hc := by rw [k.absent c (by rw [h.frame.hasChan, hc]), h.absent c hc]
  adds d := by
    obtain ⟨x, hx, ex⟩ := h.adds d
    obtain ⟨y, hy, ey⟩ := k.adds d
    exact ⟨x + y, by dsimp only; omega, by rw [ey, ex, BitVec.ofInt_add, BitVec.add_assoc]⟩

theorem mono (h : Contributes a s t) (le : ∀ d, a d ≤ b d) : Contributes b s t where
  ok := h.ok
  frame := h.frame
  absent := h.absent
  adds d := by
    obtain ⟨x, hx, ex⟩ := h.adds d
    exact ⟨x, Nat.le_trans hx (le d), ex⟩

theorem addOut (h : RouterOk s) (c : Chan) {x : Int} {n : Nat} (hx : x.natAbs ≤ n) :
    Contributes (onBus c n) s (addOut s c x) where
  ok := by
    have op : ∀ o, (Machine.addOut s c x).op o = s.op o := updChan_op fun ch sl => by cases sl <;> rfl
    have cfg : (Machine.addOut s c x).cfg = s.cfg := updChan_cfg _ _ _
    exact ⟨cfg ▸ h.cfg, fun o => by rw [op]; exact h.fb0 o, fun o => by rw [op]; exact h.fb1 o⟩
  frame := BusFrame.addOut s c x
  absent d hd := updChan_absent hd _ _
  adds d := by
    unfold Machine.addOut
    rw [updChan_chan]
    by_cases e : d = c ∧ s.hasChan c = true
    · exact ⟨x, by unfold onBus; rw [if_pos e.1]; exact hx, by rw [if_pos e, e.1]⟩
    · exact ⟨0, Nat.zero_le _, by rw [if_neg e]; simp⟩

/-- Slot 1 shifts its history and adds nothing. -/
theorem slot1 (h : RouterOk s) (c : Chan) : Contributes (fun _ => 0) s (slot1 s c).1 where
  ok := by
    have cur : (BitVec.ofInt 14 0).toInt.natAbs ≤ 4084 := by decide
    refine ⟨(BusFrame.slot1 s c).cfg ▸ h.cfg, fun o => ?_, fun o => ?_⟩
    all_goals
      unfold Machine.slot1
      dsimp only
      rw [updOp_op]
      split
    · exact h.fb1 _
    · exact h.fb0 _
    · dsimp only
      split
      · exact toInt_ofInt_14_natAbs_le (expOut_natAbs_le h.cfg _)
      · exact cur
    · exact h.fb1 _
  frame := BusFrame.slot1 s c
  absent d hd := by unfold Machine.slot1; exact updChan_absent hd _ _
  adds d := by
    refine ⟨0, Nat.le_refl _, ?_⟩
    unfold Machine.slot1
    dsimp only
    rw [updOp_chan]
    split
    · next e => rw [setOp_chanout, e.1]; simp
    · simp

end Contributes

section
variable {s : State} (h : RouterOk s)
include h

theorem slot1_cur_le (c : Chan) : (slot1 s c).2.1.natAbs ≤ 4084 := by
  unfold slot1
  dsimp only
  split
  · exact toInt_ofInt_14_natAbs_le (expOut_natAbs_le h.cfg _)
  · decide

theorem slot1_prev_le (c : Chan) : (slot1 s c).2.2.natAbs ≤ 4084 := h.fb1 _

/-! ### The contribution of each role -/

theorem chan2Op_contributes (c : Chan) : Contributes (onBus c 8168) s (chan2Op s c) := by
  have hist := Contributes.slot1 h c
  have s1 : (if s.cfg.slot1Delayed then (slot1 s c).2.2 else (slot1 s c).2.1).natAbs ≤ 4084 := by
    split
    · exact slot1_prev_le h c
    · exact slot1_cur_le h c
  have out := fun pm => slotN_natAbs_le hist.ok.cfg ⟨c, .two⟩ pm
  unfold chan2Op
  dsimp only
  split
  · have first := Contributes.addOut hist.ok c s1
    refine (hist.trans (first.trans (.addOut first.ok c (out 0)))).mono fun d => ?_
    unfold onBus; split <;> omega
  · refine (hist.trans (.addOut hist.ok c (out _))).mono fun d => ?_
    unfold onBus; split <;> omega

/-- A voice writes the bus of its master with one output and the bus of its slave with one or two. -/
theorem chan4Op_contributes (m : Chan) :
    Contributes (fun d => onBus m 8168 d + onBus (pairHigh m) 8168 d) s (chan4Op s m) := by
  have hist := Contributes.slot1 h m
  have s1 := slot1_cur_le h m
  have out := fun o pm => slotN_natAbs_le hist.ok.cfg o pm
  have one : ∀ o pm, Contributes (onBus (pairHigh m) 4084) (slot1 s m).1
      (addOut (slot1 s m).1 (pairHigh m) (slotN (slot1 s m).1 o pm)) := fun o pm => .addOut hist.ok _ (out o pm)
  have two : ∀ x : Int, x.natAbs ≤ 4084 → ∀ o pm,
      Contributes (fun d => onBus m 4084 d + onBus (pairHigh m) 4084 d) (slot1 s m).1
        (addOut (addOut (slot1 s m).1 m x) (pairHigh m) (slotN (slot1 s m).1 o pm)) := fun x hx o pm =>
    have k := Contributes.addOut hist.ok m hx
    k.trans (.addOut k.ok _ (out o pm))
  unfold chan4Op
  dsimp only
  split
  · refine (hist.trans (one _ _)).mono fun d => ?_
    unfold onBus; split <;> split <;> omega
  · refine (hist.trans (two _ (out _ _) _ _)).mono fun d => ?_
    unfold onBus; split <;> split <;> omega
  · refine (hist.trans (two _ s1 _ _)).mono fun d => ?_
    unfold onBus; split <;> split <;> omega
  · have k := two _ s1 ⟨pairHigh m, .one⟩ (slotN (slot1 s m).1 ⟨m, .two⟩ 0)
    refine (hist.trans (k.trans (.addOut k.ok _ (out _ _)))).mono fun d => ?_
    unfold onBus; split <;> split <;> omega

/-- Five doubled instruments, one on bus 6, two on bus 7 and two on bus 8 (45_rhythm.md R258). -/
theorem rhythmStep_contributes :
    Contributes (fun d => onBus 6 8168 d + (onBus 7 16336 d + onBus 8 16336 d)) s (rhythmStep s) := by
  have twice : ∀ {x : Int}, x.natAbs ≤ 4084 → (2 * x).natAbs ≤ 8168 := fun hx => by omega
  have hist := Contributes.slot1 h 6
  have bass : Contributes _ s (bassDrum s) := hist.trans (.addOut hist.ok 6 (twice (slotN_natAbs_le hist.ok.cfg _ _)))
  have hat : Contributes _ _ (highHat _) := .addOut bass.ok 7 (twice (opAt_natAbs_le bass.ok.cfg _ _))
  have snare : Contributes _ _ (snareDrum _) := .addOut hat.ok 7 (twice (opAt_natAbs_le hat.ok.cfg _ _))
  have tom : Contributes _ _ (tomTom _) := .addOut snare.ok 8 (twice (slotN_natAbs_le snare.ok.cfg _ _))
  have cymbal : Contributes _ _ (topCymbal _) := .addOut tom.ok 8 (twice (opAt_natAbs_le tom.ok.cfg _ _))
  unfold rhythmStep
  refine ((((bass.trans hat).trans snare).trans tom).trans cymbal).mono fun d => ?_
  unfold onBus; split <;> split <;> split <;> omega

end

/-! ### The channel that writes a bus -/

/-- The channel whose contribution writes bus `d`: 6 for the rhythm channels, the master for a slave, otherwise `d`. -/
def busWriter (s : State) (d : Chan) : Chan :=
  if s.glob.rhy = true ∧ 6 ≤ d.val ∧ d.val ≤ 8 then 6 else fsrc s d

/-- The bound of what channel `c` contributes to bus `d`. -/
def share (s : State) (c d : Chan) : Nat := if busWriter s d = c then busBound d else 0

theorem busBound_le (d : Chan) : 8168 ≤ busBound d := by unfold busBound; split <;> omega

theorem busWriter_rhythm {s : State} {d : Chan} (h : s.glob.rhy = true ∧ 6 ≤ d.val ∧ d.val ≤ 8) : busWriter s d = 6 :=
  if_pos h

theorem busWriter_master {s : State} {m : Chan} (h : isMaster s m = true) : busWriter s m = m := by
  unfold busWriter
  rw [if_neg (not_rhythm_of_isMaster h), fsrc_of_not_slave (isSlave_of_isMaster h)]

theorem busWriter_slave {s : State} {m c : Chan} (h : isMaster s m = true) (hc : c.val = m.val + 3) :
    busWriter s c = m := by
  unfold busWriter
  rw [if_neg (not_rhythm_of_isSlave ((isSlave_iff s c).mpr ⟨m, h, hc⟩)), fsrc_of_master h hc]

theorem busWriter_twoOp {s : State} {c : Chan} (h : role s c = .twoOp) : busWriter s c = c := by
  have rhythm := mt (role_rhythm_iff s c).mpr (by rw [h]; decide)
  have slave := mt (role_slave_iff s c).mpr (by rw [h]; decide)
  unfold busWriter
  rw [if_neg rhythm, fsrc_of_not_slave (Bool.eq_false_iff.mpr slave)]

/-- A bound on one bus is within the share of the channel that writes the bus. -/
theorem onBus_le_share {s : State} {b c : Chan} {n : Nat} (w : busWriter s b = c) (hn : n ≤ busBound b) (d : Chan) :
    onBus b n d ≤ share s c d := by
  unfold onBus
  split
  · next e => rw [e, share, if_pos w]; exact hn
  · exact Nat.zero_le _

/-- What is added to two buses that differ is within a bound when each is. -/
theorem onBus_add_le {c d : Chan} {n m k : Nat} (apart : d = c → m = 0) (hn : onBus c n d ≤ k) (hm : m ≤ k) :
    onBus c n d + m ≤ k := by
  by_cases e : d = c
  · rw [apart e]; exact hn
  · rw [onBus, if_neg e, Nat.zero_add]; exact hm

theorem pairHigh_val {c : Chan} (h : c.val < 3 ∨ (9 ≤ c.val ∧ c.val < 12)) : (pairHigh c).val = c.val + 3 := by
  revert c; decide

/-- The contribution of a channel is within its share. -/
theorem chanStep_contributes {s : State} (h : RouterOk s) (c : Chan) : Contributes (share s c) s (chanStep s c) := by
  unfold chanStep
  split
  · next r =>
    obtain ⟨rhy, -, -⟩ := (role_rhythm_iff s c).mp r
    split
    · next e =>
      subst e
      refine (rhythmStep_contributes h).mono fun d => ?_
      have six := onBus_le_share (n := 8168) (busWriter_rhythm (d := 6) ⟨rhy, by decide⟩) (by decide) d
      have seven := onBus_le_share (n := 16336) (busWriter_rhythm (d := 7) ⟨rhy, by decide⟩) (by decide) d
      have eight := onBus_le_share (n := 16336) (busWriter_rhythm (d := 8) ⟨rhy, by decide⟩) (by decide) d
      exact onBus_add_le (fun e => e ▸ rfl) six (onBus_add_le (fun e => e ▸ rfl) seven eight)
    · exact (Contributes.refl h).mono fun _ => Nat.zero_le _
  · next r =>
    have master := (role_master_iff s c).mp r
    have high := pairHigh_val (isMaster_pairLow master)
    refine (chan4Op_contributes h c).mono fun d => ?_
    have own := onBus_le_share (busWriter_master master) (busBound_le c) d
    have other := onBus_le_share (busWriter_slave master high) (busBound_le _) d
    exact onBus_add_le (fun e => if_neg (e ▸ ne_pairHigh c)) own other
  · exact (Contributes.refl h).mono fun _ => Nat.zero_le _
  · next r => exact (chan2Op_contributes h c).mono (onBus_le_share (busWriter_twoOp r) (busBound_le c))

/-! ### All channels -/

theorem BusFrame.fsrc {s t : State} (h : BusFrame s t) (c : Chan) : fsrc t c = fsrc s c := by
  unfold Machine.fsrc
  split
  · rw [h.isMaster]
  · rfl

theorem BusFrame.busWriter {s t : State} (h : BusFrame s t) (d : Chan) : busWriter t d = busWriter s d := by
  unfold Machine.busWriter
  rw [h.glob, h.fsrc]

/-- The contributions of distinct channels together stay within the bound of every bus, and reach no bus but those they
write. -/
theorem foldl_contributes {l : List Chan} (hl : l.Nodup) {s : State} (h : RouterOk s) :
    Contributes (fun d => if busWriter s d ∈ l then busBound d else 0) s (l.foldl chanStep s) := by
  induction l generalizing s with
  | nil => exact (Contributes.refl h).mono fun _ => Nat.zero_le _
  | cons c l ih =>
    rw [List.nodup_cons] at hl
    obtain ⟨fresh, hl⟩ := hl
    have first := chanStep_contributes h c
    refine (first.trans (ih hl first.ok)).mono fun d => ?_
    rw [first.frame.busWriter, share]
    by_cases e : busWriter s d = c
    · rw [if_pos e, if_neg (e ▸ fresh), if_pos (e ▸ List.mem_cons_self)]
      exact Nat.le_refl _
    · rw [if_neg e, Nat.zero_add]
      split
      · next mem => exact Nat.le_of_eq (if_pos (List.mem_cons_of_mem c mem)).symm
      · exact Nat.zero_le _

theorem chanList_nodup (s : State) : s.chanList.Nodup :=
  List.Pairwise.filter _ (by decide)

theorem SafeState.routerOk {s : State} (h : SafeState s) : RouterOk s :=
  ⟨h.cfg_bounded, fun o => (h.op_ok o).safe.fb0_le, fun o => (h.op_ok o).safe.fb1_le⟩

/-- Step 3 keeps the invariants when every bus is clear. -/
theorem SafeState.channelsStep {s : State} (h : SafeState s) (clear : ∀ c, (s.chan c).chanout = 0) :
    SafeState (channelsStep s) := by
  have all : Contributes _ s (Machine.channelsStep s) := foldl_contributes (chanList_nodup s) h.routerOk
  obtain ⟨router, frame, absent, adds⟩ := all
  have bus : ∀ c, ((Machine.channelsStep s).chan c).chanout.toInt.natAbs ≤ busBound c := fun c => by
    obtain ⟨x, hx, e⟩ := adds c
    have bound : x.natAbs ≤ busBound c := Nat.le_trans hx (by dsimp only; split <;> omega)
    have small : busBound c ≤ 16336 := by unfold busBound; split <;> omega
    rw [e, clear, show (0 : BitVec 32) = 0#32 from rfl, BitVec.zero_add, toInt_ofInt_32 (by omega)]
    exact bound
  have ops : ∀ o, OpOk s.cfg.variant ((Machine.channelsStep s).op o) := fun o => by
    have ok := h.op_ok o
    have fb0 := router.fb0 o
    have fb1 := router.fb1 o
    rw [frame.op o] at fb0 fb1 ⊢
    exact ⟨⟨ok.safe.off_vol, ok.safe.dec_vol, fb0, fb1, ok.safe.key_csm⟩, ok.waves⟩
  refine h.of_chans (by rw [frame.same]) (by rw [frame.same]; exact h.status_ok) (fun c _ => ?_) absent
  refine ⟨bus c, ?_, fun sl => ops ⟨c, sl⟩⟩
  rw [frame.chan c]; exact (h.chan_ok c).peak_le

/-! ### Every step -/

theorem SafeState.tickSteps {s : State} (h : SafeState s) : SafeState (tickSteps s) :=
  (h.lfoAdvance.clearOut.channelsStep h.lfoAdvance.clearOut_chanout).mixStep.advanceSteps

/-- An address of bank 0 has bit 8 clear. -/
theorem bankZero_bit (v : Byte) : (0#1 ++ v).getLsbD 8 = false := by
  rw [BitVec.getLsbD_append]; rfl

/-- An address that respects the variant keeps the invariants. -/
theorem SafeState.with_addr {s : State} (h : SafeState s) {a : BitVec 9}
    (ha : s.cfg.variant = .v1 → a.getLsbD 8 = false) : SafeState { s with addr := a } :=
  { h with v1_bank := ha }

/-- Every instruction but `RESET` keeps the invariants. -/
theorem SafeState.body {s : State} (h : SafeState s) (i : Instr) : SafeState (body i s) := by
  by_cases hr : isRegWrite i = true
  · rw [body_eq_regOp hr]; exact h.regOp i
  cases i with
  | wra v => exact (h.with_addr fun _ => bankZero_bit v).with_out _
  | wra2 v => exact (h.with_addr fun e => by rw [e]; exact bankZero_bit v).with_out _
  | wrd v => exact (h.regWrite _ v).with_out _
  | rd => exact h.with_out _
  | texp0 => exact (h.irqSet (.inl rfl)).csmKeys.with_out _
  | texp1 => exact (h.irqSet (.inr rfl)).with_out _
  | tick => exact h.tickSteps
  | peakclr => exact h.clearPeaks
  | reset => exact h
  | _ => exact absurd rfl hr

/-! ### Reset and every instruction -/

theorem OpSafe.reset : OpSafe Op.reset := ⟨fun _ => rfl, (nomatch ·), by decide, by decide, rfl⟩

/-- The reset state of a bounded configuration is safe. -/
theorem SafeState.resetOf {cfg : Config} (h : boundedConfig cfg = true) : SafeState (State.resetOf cfg) where
  cfg_bounded := h
  lfoAm_lt := by change 0 < lfoAmWrap; decide
  noise_ne := by change (1 : BitVec 23) ≠ 0; decide
  egTimer_lt := egOvf_pos h
  status_ok := by change statusOk 0 = true; decide
  mixL_lt := by change (0 : BitVec 32).toInt.natAbs < 2 ^ 19; decide
  mixR_lt := by change (0 : BitVec 32).toInt.natAbs < 2 ^ 19; decide
  chans_safe c := by
    rw [resetOf_chan]
    exact ⟨Nat.zero_le _, Nat.zero_le _, OpSafe.reset, OpSafe.reset⟩
  v1_bank _ := by change (0 : BitVec 9).getLsbD 8 = false; rfl
  v1_wave _ o := by rw [resetOf_op]; decide
  absent_reset c _ := resetOf_chan cfg c

/-- What waits to be executed is free. -/
theorem SafeState.with_input {s : State} (h : SafeState s) (l : List Command) : SafeState { s with input := l } :=
  { h with }

theorem SafeState.exec {s t : State} (h : SafeState s) {i : Instr} (e : exec i s = .next t) : SafeState t := by
  rcases exec_next e with ⟨-, rfl⟩ | ⟨-, -, rfl⟩
  · exact ((SafeState.resetOf h.cfg_bounded).with_input s.input).with_out
      { result := .none, events := resetEvents s }
  · exact (h.with_out _).body i

end Sys2Proof.Machine
end

section
/-! The statements about steps, state and invariants. -/

namespace Sys2Proof.Machine

/-- Settles O57, instruction by instruction; a tick step by step. -/
theorem safeStateIsKeptByEveryStep : Obligations.SafeStateIsKeptByEveryStep := by
  intro s t h e
  cases input : s.input with
  | nil =>
    rw [step_nil input, Host.Outcome.next.injEq] at e
    exact e ▸ h
  | cons c rest =>
    rw [step_cons input] at e
    exact (h.with_input rest).exec e

/-- Settles O15, from the frame of every command. -/
theorem configurationNeverChanges : Obligations.ConfigurationNeverChanges := by
  intro s t i e
  rcases exec_next e with ⟨-, rfl⟩ | ⟨-, -, rfl⟩
  · rfl
  · exact (body_cfg_live i s.begin).1

/-- Settles O18: the pairs of `pairIndex` and `pairLow`, and the three tests of `role` exclude each other. -/
theorem rolesOfTheChannels : Obligations.RolesOfTheChannels := by
  intro s c
  refine ⟨?_, isSlave_iff s c, ?_, role_rhythm_iff s c, role_master_iff s c, role_slave_iff s c⟩
  · rw [isMaster_iff, extOf_iff]
    simp only [pairIndex_eq_some_iff]
    refine and_congr_right fun _ => and_congr_right fun _ => ⟨?_, ?_⟩
    · rintro ⟨i, mem, ext⟩
      exact ⟨(c.val, i), mem, rfl, ext⟩
    · rintro ⟨⟨_, i⟩, mem, rfl, ext⟩
      exact ⟨i, mem, ext⟩
  · split
    · next h =>
      obtain ⟨m, hm, hc⟩ := (isSlave_iff s c).mp h
      rw [fsrc_of_master hm hc]
      omega
    · next h => rw [fsrc_of_not_slave (Bool.eq_false_iff.mpr h)]

/-- Settles O29: what the body of each command does to the latch and to the status byte. -/
theorem onlyTheseCommandsChangeLatchAndStatus : Obligations.OnlyTheseCommandsChangeLatchAndStatus := by
  intro s t i e
  rcases exec_next e with ⟨hi, rfl⟩ | ⟨-, -, rfl⟩
  · exact ⟨.inr (.inl hi), .inr (.inl hi)⟩
  · constructor
    · rcases body_addr i s.begin with h | h
      · exact .inl h
      · exact .inr (.inr h)
    · rcases body_status i s.begin with h | h
      · exact .inl h
      · exact .inr (.inr h)

/-- Settles O30: `RESET` leaves every operator off and unkeyed, a tick moves no operator into attack or release and
changes no mask, and every other command moves an operator by key events alone. -/
theorem onlyTheseCommandsChangeTheEnvelopePhase : Obligations.OnlyTheseCommandsChangeTheEnvelopePhase := by
  intro s t i o e
  rcases exec_next e with ⟨rfl, rfl⟩ | ⟨-, -, rfl⟩
  · rw [show (afterReset s).op o = Op.reset from resetOf_op s.cfg o]
    exact ⟨(nomatch ·), (nomatch ·), (by rcases · with e | e <;> cases e), fun _ _ => .inr rfl,
      .inr (.inr (.inr (.inl rfl)))⟩
  by_cases ht : i = .tick
  · subst ht
    have move : TickMove (s.op o) ((body .tick s.begin).op o) := (TickFrame.tickSteps s.begin).op o
    exact ⟨fun e n => absurd (move.att e) n, fun e n => absurd (move.rel e) n, fun _ _ => rfl, fun _ _ => .inl rfl,
      .inl move.key⟩
  · have move : PhaseMove (attacks i) (releases i) (s.op o) ((body i s.begin).op o) := body_phaseMove ht s.begin o
    refine ⟨move.att, move.rel, fun e n => absurd (move.fall e) n, fun e n => absurd (move.off e) n, ?_⟩
    rcases move.key with k | k | k | k
    · exact .inl k
    · exact .inr (.inl k)
    · exact .inr (.inr (.inl k))
    · exact .inr (.inr (.inr (.inr k)))

/-- Settles O42: one equation for each derived value, and the ranges of its summands. -/
theorem derivedValuesStayInRange : Obligations.DerivedValuesStayInRange := fun s o =>
  ⟨blockFnum_toNat s o.ch, kcode_toNat s o.ch, ksr_eq s o, tll_eq s o, rate_eq, rfl, rfl, rfl, egPar_attack s o, rfl, rfl,
    lfoAm_eq s, rfl, fun h => ⟨scaledRate_le s o, tll_le h o, lfoAm_le h, env_le h o⟩⟩

/-- Settles O7: by the two equations of `step`, and decoding after encoding in the formats P and E. -/
theorem stepRunsTheDecodedCommand : Obligations.StepRunsTheDecodedCommand := by
  refine ⟨fun s c rest => step_cons, fun x w e => ⟨rfl, rfl⟩, ?_, ?_, fun s => step_nil⟩
  · intro s i w rest wf enc h
    rw [step_cons h, Command.instr, decodeP_of_encode wf enc]
  · intro s i e rest enc h
    rw [step_cons h, Command.instr, decodeE_of_encode enc]

/-- Settles O14: every instruction but `RESET` has the frame `command`. -/
theorem nothingRunsBeforeTheFirstReset : Obligations.NothingRunsBeforeTheFirstReset := by
  constructor
  · intro s i dead hi
    rw [exec_eq_command hi, command, dead]
    rfl
  · intro s t i e
    rcases exec_next e with ⟨-, rfl⟩ | ⟨-, live, rfl⟩
    · rfl
    · exact (body_cfg_live i s.begin).2.trans live

/-- Settles O56: the reset state of a bounded configuration is safe, and the standard configurations are bounded. -/
theorem resetStateIsSafe : Obligations.ResetStateIsSafe :=
  ⟨SafeState.resetOf (stdConfig_bounded .v2), fun x => SafeState.resetOf (stdConfig_bounded x)⟩

end Sys2Proof.Machine
end

section
/-! SUPPORT. The locations of the register space (30_encoding.md R103 to R107): the channel and the operator a register
number selects, the rows of the location decoder, which numbers it refuses, and the number of each location. -/

namespace Sys2Proof.Machine

/-! ### Channels and operators in a bank -/

theorem chanOf_eq_none_iff (bank : Bool) (n : Nat) : chanOf bank n = none ↔ 9 ≤ n := by
  unfold chanOf
  split <;> simp <;> omega

theorem chanNum_lt (c : Chan) : chanNum c < 9 := by
  unfold chanNum
  split <;> omega

theorem chanNum_eq_mod (c : Chan) : chanNum c = c.val % 9 := by
  unfold chanNum
  split <;> omega

theorem chanOf_chanNum (c : Chan) : chanOf (chanBank c) (chanNum c) = some c := by
  have lt := chanNum_lt c
  unfold chanOf
  rw [dif_pos lt, Option.some.injEq, Fin.ext_iff]
  by_cases high : 9 ≤ c.val
  · have bank : chanBank c = true := decide_eq_true high
    have num : chanNum c = c.val - 9 := if_pos high
    rw [if_pos bank]
    change chanNum c + 9 = c.val
    omega
  · have bank : ¬ chanBank c = true := fun e => high (of_decide_eq_true e)
    have num : chanNum c = c.val := if_neg high
    rw [if_neg bank]
    exact num

theorem chanBank_of_chanOf {bank : Bool} {n : Nat} {c : Chan} (h : chanOf bank n = some c) : chanBank c = bank := by
  unfold chanOf at h
  split at h
  · cases h
    cases bank <;> simp [chanBank]
    omega
  · cases h

/-- The holes of `SLOT_OF_OFFSET` (30_encoding.md R104). -/
theorem opOfOffset_eq_none_iff (bank : Bool) (off : BitVec 5) :
    opOfOffset bank off = none ↔ 24 ≤ off.toNat ∨ 6 ≤ off.toNat % 8 := by
  unfold opOfOffset
  dsimp only
  split
  · rw [Option.map_eq_none_iff, chanOf_eq_none_iff]
    omega
  · simp only [true_iff]
    omega

theorem chanBank_of_opOfOffset {bank : Bool} {off : BitVec 5} {o : OpRef} (h : opOfOffset bank off = some o) :
    chanBank o.ch = bank := by
  unfold opOfOffset at h
  dsimp only at h
  split at h
  · obtain ⟨c, hc, rfl⟩ := Option.map_eq_some_iff.mp h
    exact chanBank_of_chanOf hc
  · cases h

theorem offsetOfOp_lt (o : OpRef) : offsetOfOp o < 22 := by
  have lt := chanNum_lt o.ch
  unfold offsetOfOp
  split <;> omega

/-- `SLOT_OF_OFFSET` reads the offset of an operator back. -/
theorem opOfOffset_offsetOfOp (o : OpRef) : opOfOffset (chanBank o.ch) (BitVec.ofNat 5 (offsetOfOp o)) = some o := by
  rcases o with ⟨c, sl⟩
  cases sl <;> revert c <;> decide

/-! ### The parts of a register number -/

theorem toNat_row (a : Byte) : (a.extractLsb' 5 3).toNat = a.toNat / 32 := by
  have := a.isLt
  rw [BitVec.extractLsb'_toNat, Nat.shiftRight_eq_div_pow]
  omega

theorem toNat_offset (a : Byte) : (a.extractLsb' 0 5).toNat = a.toNat % 32 := by
  rw [BitVec.extractLsb'_toNat, Nat.shiftRight_zero]

theorem toNat_chanBits (a : Byte) : (a.extractLsb' 0 4).toNat = a.toNat % 16 := by
  rw [BitVec.extractLsb'_toNat, Nat.shiftRight_zero]

theorem getLsbD_four (a : Byte) : a.getLsbD 4 = decide (16 ≤ a.toNat % 32) := by
  rw [BitVec.getLsbD, Nat.testBit_eq_decide_div_mod_eq, decide_eq_decide]
  omega

/-! ### The parts of the location decoder -/

theorem decodeOpReg_error_iff (g : OpReg) (bank : Bool) (a : Byte) :
    (∃ e, decodeOpReg g bank a = .error e) ↔ 24 ≤ a.toNat % 32 ∨ 6 ≤ a.toNat % 8 := by
  have none_iff := opOfOffset_eq_none_iff bank (a.extractLsb' 0 5)
  rw [toNat_offset] at none_iff
  unfold decodeOpReg
  split
  · next o e =>
    simp only [reduceCtorEq, exists_false, false_iff]
    rw [e] at none_iff
    simp only [reduceCtorEq, false_iff] at none_iff
    omega
  · next e =>
    refine iff_of_true ⟨_, rfl⟩ ?_
    have := none_iff.mp e
    omega

theorem decodeChanReg_error_iff (mk : Chan → Loc) (bank : Bool) (a : Byte) :
    (∃ e, decodeChanReg mk bank a = .error e) ↔ 9 ≤ a.toNat % 16 := by
  rw [← chanOf_eq_none_iff bank]
  unfold decodeChanReg
  rw [toNat_chanBits]
  split <;> simp_all

theorem decodeGlobal0_error_iff (a : Byte) :
    (∃ e, decodeGlobal0 a = .error e) ↔ a.toNat ∉ [0x01, 0x02, 0x03, 0x04, 0x08] := by
  unfold decodeGlobal0
  simp only [← BitVec.toNat_inj]
  (repeat' split) <;> simp_all

theorem decodeGlobal1_error_iff (a : Byte) : (∃ e, decodeGlobal1 a = .error e) ↔ a.toNat ∉ [0x04, 0x05] := by
  unfold decodeGlobal1
  simp only [← BitVec.toNat_inj]
  (repeat' split) <;> simp_all

/-- The row of `RHYTHM` refuses `0xBD` in bank 1, and the gaps in both banks. -/
theorem decodeRow5_error_iff (bank : Bool) (a : Byte) :
    (∃ e, decodeRow5 bank a = .error e) ↔
      (a.toNat = 0xBD ∧ bank = true) ∨ (a.toNat ≠ 0xBD ∧ 9 ≤ a.toNat % 16) := by
  have is_rhythm : a = 0xBD ↔ a.toNat = 0xBD := BitVec.toNat_inj.symm
  unfold decodeRow5
  split
  · next h => cases bank <;> simp [is_rhythm.mp h]
  · next h =>
    have ne : a.toNat ≠ 0xBD := fun e => h (is_rhythm.mpr e)
    have gap : (a.toNat = 0xBD ∧ bank = true) ∨ (a.toNat ≠ 0xBD ∧ 9 ≤ a.toNat % 16) ↔ 9 ≤ a.toNat % 16 :=
      ⟨fun k => k.elim (fun e => absurd e.1 ne) And.right, fun k => .inr ⟨ne, k⟩⟩
    rw [gap]
    split <;> exact decodeChanReg_error_iff _ bank a

theorem decodeOpReg_bank {g : OpReg} {bank : Bool} {a : Byte} {l : Loc} (h : decodeOpReg g bank a = .ok l) :
    l.bank = bank := by
  unfold decodeOpReg at h
  split at h
  · next o e =>
    cases h
    exact chanBank_of_opOfOffset e
  · cases h

/-- A kind of channel register keeps the bank of its channel. -/
theorem decodeChanReg_bank {mk : Chan → Loc} (mk_bank : ∀ c, (mk c).bank = chanBank c) {bank : Bool} {a : Byte}
    {l : Loc} (h : decodeChanReg mk bank a = .ok l) : l.bank = bank := by
  unfold decodeChanReg at h
  split at h
  · next c e =>
    cases h
    exact (mk_bank c).trans (chanBank_of_chanOf e)
  · cases h

theorem decodeGlobal0_bank {a : Byte} {l : Loc} (h : decodeGlobal0 a = .ok l) : l.bank = false := by
  unfold decodeGlobal0 at h
  (repeat' split at h) <;> cases h <;> rfl

theorem decodeGlobal1_bank {a : Byte} {l : Loc} (h : decodeGlobal1 a = .ok l) : l.bank = true := by
  unfold decodeGlobal1 at h
  (repeat' split at h) <;> cases h <;> rfl

theorem decodeRow5_bank {bank : Bool} {a : Byte} {l : Loc} (h : decodeRow5 bank a = .ok l) : l.bank = bank := by
  unfold decodeRow5 at h
  split at h
  · cases bank <;> cases h
    rfl
  · split at h <;> exact decodeChanReg_bank (fun _ => rfl) h

/-! ### The rows of the location decoder -/

/-- The variant has the bank: V1 has bank 0 only (30_encoding.md R103). -/
def HasBank (x : Variant) (bank : Bool) : Prop := x = .v1 → bank = false

/-- What the location decoder answers in the row `a[7:5]` of a bank that the variant has (30_encoding.md R107). -/
def decodeRow (bank : Bool) (a : Byte) : Nat → Except DecodeRefusal Loc
  | 0 => if bank then decodeGlobal1 a else decodeGlobal0 a
  | 1 => decodeOpReg .opchar bank a
  | 2 => decodeOpReg .oplevel bank a
  | 3 => decodeOpReg .opad bank a
  | 4 => decodeOpReg .opsr bank a
  | 5 => decodeRow5 bank a
  | 6 => decodeChanReg .fbcon bank a
  | _ => decodeOpReg .opwave bank a

theorem decodeLoc_eq_decodeRow {x : Variant} {bank : Bool} (h : HasBank x bank) (a : Byte) :
    decodeLoc x bank a = decodeRow bank a (a.toNat / 32) := by
  have : ¬ (x = .v1 ∧ bank = true) := fun ⟨hx, hb⟩ => by rw [h hx] at hb; cases hb
  unfold decodeLoc
  rw [if_neg this, toNat_row]
  rfl

theorem decodeLoc_noBankOne (a : Byte) : decodeLoc .v1 true a = .error .noBankOne := by
  unfold decodeLoc
  rw [if_pos ⟨rfl, rfl⟩]

theorem decodeRow_bank {bank : Bool} {a : Byte} {k : Nat} {l : Loc} (h : decodeRow bank a k = .ok l) :
    l.bank = bank := by
  unfold decodeRow at h
  split at h
  · split at h
    · next hb => exact (decodeGlobal1_bank h).trans hb.symm
    · next hb => exact (decodeGlobal0_bank h).trans (Bool.eq_false_iff.mpr hb).symm
  · exact decodeOpReg_bank h
  · exact decodeOpReg_bank h
  · exact decodeOpReg_bank h
  · exact decodeOpReg_bank h
  · exact decodeRow5_bank h
  · exact decodeChanReg_bank (fun _ => rfl) h
  · exact decodeOpReg_bank h

/-- A location is decoded from its own bank, which the variant has. -/
theorem decodeLoc_bank {x : Variant} {bank : Bool} {a : Byte} {l : Loc} (h : decodeLoc x bank a = .ok l) :
    l.bank = bank ∧ HasBank x bank := by
  have has : HasBank x bank := by
    rintro rfl
    cases bank
    · rfl
    · rw [decodeLoc_noBankOne] at h; cases h
  rw [decodeLoc_eq_decodeRow has] at h
  exact ⟨decodeRow_bank h, has⟩

/-! ### The refused locations -/

/-- The reserved register numbers of the row `a[7:5]` (30_encoding.md R107, R110). -/
def ReservedInRow (bank : Bool) (n : Nat) : Nat → Prop
  | 0 => n ∉ if bank then [0x04, 0x05] else [0x01, 0x02, 0x03, 0x04, 0x08]
  | 5 => (n = 0xBD ∧ bank = true) ∨ (n ≠ 0xBD ∧ 9 ≤ n % 16)
  | 6 => 9 ≤ n % 16
  | _ => 24 ≤ n % 32 ∨ 6 ≤ n % 8

theorem decodeRow_error_iff (bank : Bool) (a : Byte) {k : Nat} (lt : k < 8) :
    (∃ e, decodeRow bank a k = .error e) ↔ ReservedInRow bank a.toNat k := by
  match k, lt with
  | 0, _ =>
    cases bank
    · exact decodeGlobal0_error_iff a
    · exact decodeGlobal1_error_iff a
  | 1, _ | 2, _ | 3, _ | 4, _ | 7, _ => exact decodeOpReg_error_iff _ bank a
  | 5, _ => exact decodeRow5_error_iff bank a
  | 6, _ => exact decodeChanReg_error_iff _ bank a

/-- The list of 30_encoding.md R110, read row by row. -/
theorem reservedByList_iff (bank : Bool) (a : Byte) :
    reservedByList bank a = true ↔ ReservedInRow bank a.toNat (a.toNat / 32) := by
  have lt := a.isLt
  unfold reservedByList ReservedInRow
  generalize a.toNat = n at lt ⊢
  cases bank
  all_goals
    simp only [Bool.or_eq_true, Bool.and_eq_true, beq_iff_eq, decide_eq_true_eq, Bool.false_eq_true, if_false, if_true,
      and_false, and_true, false_or, List.mem_cons, List.not_mem_nil, or_false]
    split
    · omega
    · omega
    · omega
    · next h0 h5 h6 =>
      have row : n / 32 ≠ 0 ∧ n / 32 ≠ 5 ∧ n / 32 ≠ 6 := ⟨h0, h5, h6⟩
      omega

/-! ### The number of a location -/

theorem base_aligned (g : OpReg) : g.base ≤ 0xE0 ∧ g.base % 32 = 0 := by
  cases g <;> decide

/-- The row of an operator register is that of its base address (30_encoding.md R105). -/
theorem decodeRow_opReg (g : OpReg) (bank : Bool) (a : Byte) :
    decodeRow bank a (g.base / 32) = decodeOpReg g bank a := by
  cases g <;> rfl

theorem number_opReg (g : OpReg) (o : OpRef) : (Loc.opReg g o).number.toNat = g.base + offsetOfOp o := by
  have aligned := base_aligned g
  have lt := offsetOfOp_lt o
  exact Nat.mod_eq_of_lt (by omega)

theorem decodeOpReg_number (g : OpReg) (o : OpRef) :
    decodeOpReg g (chanBank o.ch) (Loc.opReg g o).number = .ok (.opReg g o) := by
  have aligned := base_aligned g
  have offset : (Loc.opReg g o).number.extractLsb' 0 5 = BitVec.ofNat 5 (offsetOfOp o) := by
    apply BitVec.eq_of_toNat_eq
    rw [toNat_offset, number_opReg, BitVec.toNat_ofNat]
    omega
  unfold decodeOpReg
  rw [offset, opOfOffset_offsetOfOp]

/-- The register number at a base address for channel registers. -/
theorem toNat_chanNumber (c : Chan) {base : Nat} (h : base ≤ 0xF0) :
    (BitVec.ofNat 8 (base + chanNum c)).toNat = base + chanNum c := by
  have lt := chanNum_lt c
  exact Nat.mod_eq_of_lt (by omega)

/-- Bits 3:0 of a register number give the channel (30_encoding.md R103). -/
theorem decodeChanReg_chanNumber (mk : Chan → Loc) (c : Chan) {base : Nat} (h : base ≤ 0xF0)
    (aligned : base % 16 = 0) :
    decodeChanReg mk (chanBank c) (BitVec.ofNat 8 (base + chanNum c)) = .ok (mk c) := by
  have lt := chanNum_lt c
  have low : (base + chanNum c) % 16 = chanNum c := by omega
  unfold decodeChanReg
  rw [toNat_chanBits, toNat_chanNumber c h, low, chanOf_chanNum]

/-- The row of a channel register is that of its base address (30_encoding.md R105). -/
theorem row_chanNumber (c : Chan) {base : Nat} (h : base ≤ 0xF0) (aligned : base % 16 = 0) :
    (BitVec.ofNat 8 (base + chanNum c)).toNat / 32 = base / 32 := by
  have lt := chanNum_lt c
  rw [toNat_chanNumber c h]
  omega

/-- In the row of `RHYTHM` bit 4 tells `KONBLK` from `FNLO`. -/
theorem decodeRow5_chanNumber (c : Chan) {base : Nat} (h : base = 0xA0 ∨ base = 0xB0) :
    decodeRow5 (chanBank c) (BitVec.ofNat 8 (base + chanNum c)) =
      .ok (if base = 0xB0 then .konblk c else .fnlo c) := by
  have lt := chanNum_lt c
  have num := toNat_chanNumber c (base := base) (by omega)
  have ne : BitVec.ofNat 8 (base + chanNum c) ≠ 0xBD := by
    intro e
    have e : base + chanNum c = 0xBD := by rw [← num, e]; rfl
    omega
  have bit4 : (BitVec.ofNat 8 (base + chanNum c)).getLsbD 4 = true ↔ base = 0xB0 := by
    rw [getLsbD_four, num, decide_eq_true_iff]
    omega
  unfold decodeRow5
  simp only [if_neg ne, bit4, decodeChanReg_chanNumber _ c (base := base) (by omega) (by omega)]
  split <;> rfl

/-- Every location is decoded from its own bank and number. -/
theorem decodeRow_number (l : Loc) : decodeRow l.bank l.number (l.number.toNat / 32) = .ok l := by
  cases l with
  | test | timer1 | timer2 | tctl | mode | fourop | newmode | rhythm => rfl
  | opReg g o =>
    have aligned := base_aligned g
    have lt := offsetOfOp_lt o
    have row : (Loc.opReg g o).number.toNat / 32 = g.base / 32 := by rw [number_opReg]; omega
    rw [row, decodeRow_opReg]
    exact decodeOpReg_number g o
  | fnlo c =>
    have row : (Loc.fnlo c).number.toNat / 32 = 5 := row_chanNumber c (by decide) rfl
    rw [row]
    exact decodeRow5_chanNumber c (.inl rfl)
  | konblk c =>
    have row : (Loc.konblk c).number.toNat / 32 = 5 := row_chanNumber c (by decide) rfl
    rw [row]
    exact decodeRow5_chanNumber c (.inr rfl)
  | fbcon c =>
    have row : (Loc.fbcon c).number.toNat / 32 = 6 := row_chanNumber c (by decide) rfl
    rw [row]
    exact decodeChanReg_chanNumber .fbcon c (by decide) rfl

/-- Every location of a bank that the variant has is decoded from its number. -/
theorem decodeLoc_number {x : Variant} {l : Loc} (h : HasBank x l.bank) : decodeLoc x l.bank l.number = .ok l := by
  rw [decodeLoc_eq_decodeRow h, decodeRow_number]

/-- `0xD0 + n` is the second place of `FBCON` (30_encoding.md R107). -/
theorem decodeLoc_fbcon_second {x : Variant} {c : Chan} (h : HasBank x (chanBank c)) :
    decodeLoc x (chanBank c) (BitVec.ofNat 8 (0xD0 + chanNum c)) = .ok (.fbcon c) := by
  rw [decodeLoc_eq_decodeRow h, row_chanNumber c (by decide) rfl]
  exact decodeChanReg_chanNumber .fbcon c (by decide) rfl

end Sys2Proof.Machine
end

section
/-! SUPPORT. Format-R words and the instructions they carry (30_encoding.md R102, R105, R106, R108): decoding an address
with a data byte, the word that encodes a register write, and which decoded instructions a variant has. -/

namespace Sys2Proof.Machine

/-! ### Words -/

theorem extractLsb'_append_mid {k m n : Nat} (a : BitVec k) (b : BitVec m) (c : BitVec n) :
    (a ++ b ++ c).extractLsb' n m = b := by
  rw [BitVec.extractLsb'_append_eq_of_le (Nat.le_refl n), Nat.sub_self, BitVec.extractLsb'_append_eq_right]

theorem bank_of_address (bank : Bool) (a : Byte) : (BitVec.ofBool bank ++ a).getLsbD 8 = bank := by
  rw [BitVec.getLsbD_append, if_neg (by decide)]
  simp

theorem bank_of_word (bank : Bool) (a v : Byte) : (BitVec.ofBool bank ++ a ++ v).getLsbD 16 = bank := by
  rw [BitVec.getLsbD_append, if_neg (by decide)]
  exact bank_of_address bank a

/-- A format-R word is an address and a data byte (30_encoding.md R102). -/
theorem decodeR_append (x : Variant) (bank : Bool) (a v : Byte) :
    decodeR x (BitVec.ofBool bank ++ a ++ v) = (decodeLoc x bank a).map fun l => l.instr v := by
  unfold decodeR
  rw [bank_of_word, extractLsb'_append_mid, BitVec.extractLsb'_append_eq_right]

/-- The word of a location in a bank that the variant has is the register write of that location. -/
theorem decodeR_regWord {x : Variant} {l : Loc} (h : HasBank x l.bank) (v : Byte) :
    decodeR x (regWord l v) = .ok (l.instr v) := by
  unfold regWord Loc.addr
  rw [decodeR_append, decodeLoc_number h]
  rfl

/-! ### Which instructions a variant has -/

theorem chanExists_iff (x : Variant) (c : Chan) : chanExists x c = true ↔ HasBank x (chanBank c) := by
  unfold HasBank chanBank
  cases x <;> simp [chanExists]

/-- A variant has a register write exactly when it has the bank of the location (30_encoding.md R108). -/
theorem instr_wf_iff (x : Variant) (l : Loc) (v : Byte) : (l.instr v).wf x = true ↔ HasBank x l.bank := by
  have bankOne : (x == .v2) = true ↔ HasBank x true := by
    unfold HasBank
    cases x <;> decide
  cases l with
  | test | timer1 | timer2 | tctl | mode | rhythm => exact iff_of_true rfl fun _ => rfl
  | fourop | newmode => exact bankOne
  | opReg g o => cases g <;> exact chanExists_iff x o.ch
  | fnlo c | konblk c | fbcon c => exact chanExists_iff x c

theorem decodeR_wf {x : Variant} {w : BitVec 17} {i : Instr} (h : decodeR x w = .ok i) : i.wf x = true := by
  unfold decodeR at h
  generalize e : decodeLoc x (w.getLsbD 16) (w.extractLsb' 8 8) = r at h
  cases r with
  | error => cases h
  | ok l =>
    cases h
    obtain ⟨bank, has⟩ := decodeLoc_bank e
    rw [instr_wf_iff, bank]
    exact has

theorem decodeP_wf (x : Variant) (w : BitVec 11) : (decodeP x w).wf x = true := by
  unfold decodeP
  dsimp only
  split
  · rfl
  · split
    · rfl
    · split
      · cases x <;> rfl
      · rfl

theorem decodeE_wf (x : Variant) (e : HostEvent) : (decodeE e).wf x = true := by
  cases e <;> rfl

/-! ### The encoding of a register write -/

/-- A format-R encoding is the word of a location with a data byte, and the fields of that byte are those of the
instruction. -/
theorem encode_reg {i : Instr} {w : BitVec 17} (h : encode i = .r w) : ∃ l v, w = regWord l v ∧ l.instr v = i := by
  cases i with
  | wra | wra2 | wrd | rd | texp0 | texp1 | tick | peakclr | reset => cases h
  | timer1 | timer2 | fnlo =>
    cases h
    exact ⟨_, _, rfl, rfl⟩
  | fourop | oplevel | opad | opsr | opwave =>
    cases h
    refine ⟨_, _, rfl, ?_⟩
    simp only [Loc.instr, BitVec.extractLsb'_append_eq_right, BitVec.extractLsb'_append_eq_left]
  | test | tctl | mode | newmode | rhythm | opchar | konblk | fbcon =>
    cases h
    refine ⟨_, _, rfl, ?_⟩
    simp only [Loc.instr, BitVec.getLsbD_append, BitVec.extractLsb'_append_eq_right, extractLsb'_append_mid]
    simp

/-- Decoding the encoding of a well-formed register write gives it back. -/
theorem decodeR_of_encode {x : Variant} {i : Instr} {w : BitVec 17} (wf : i.wf x = true) (h : encode i = .r w) :
    decodeR x w = .ok i := by
  obtain ⟨l, v, rfl, rfl⟩ := encode_reg h
  exact decodeR_regWord ((instr_wf_iff x l v).mp wf) v

end Sys2Proof.Machine
end

section
/-! SUPPORT. The addresses of the register map (30_encoding.md R103, R104) as the locations they decode to. -/

namespace Sys2Proof.Machine

/-- Nine address bits are the bank of a channel and a register number. -/
theorem ofNat_bank_number (c : Chan) {n : Nat} (h : n < 256) :
    BitVec.ofNat 9 (256 * (c.val / 9) + n) = BitVec.ofBool (chanBank c) ++ BitVec.ofNat 8 n := by
  have bank : (BitVec.ofBool (chanBank c)).toNat = c.val / 9 := by
    unfold chanBank
    by_cases high : 9 ≤ c.val <;> simp [high] <;> omega
  apply BitVec.eq_of_toNat_eq
  rw [BitVec.toNat_append, BitVec.toNat_ofNat, BitVec.toNat_ofNat, bank, Nat.mod_eq_of_lt h,
    ← Nat.shiftLeft_add_eq_or_of_lt h, Nat.shiftLeft_eq]
  omega

theorem chanAddr_eq (c : Chan) {base : Nat} (h : base ≤ 0xF0) :
    chanAddr base c = BitVec.ofBool (chanBank c) ++ BitVec.ofNat 8 (base + chanNum c) := by
  have lt := chanNum_lt c
  unfold chanAddr
  rw [← ofNat_bank_number c (by omega), chanNum_eq_mod, Nat.add_assoc]

theorem opAddr_eq (g : OpReg) (o : OpRef) : opAddr g.base o = (Loc.opReg g o).addr := by
  have aligned := base_aligned g
  have lt := offsetOfOp_lt o
  have number : (Loc.opReg g o).number = BitVec.ofNat 8 (g.base + offsetOfOp o) := rfl
  unfold Loc.addr
  rw [number, Loc.bank, ← ofNat_bank_number o.ch (by omega)]
  unfold opAddr offsetOfOp
  rw [chanNum_eq_mod]
  rcases o with ⟨c, sl⟩
  cases sl
  all_goals
    congr 1
    dsimp only
    omega

/-- The word at the address of an operator register. -/
theorem decodeR_opAddr {x : Variant} {o : OpRef} (h : chanExists x o.ch = true) (g : OpReg) (v : Byte) :
    decodeR x (opAddr g.base o ++ v) = .ok ((Loc.opReg g o).instr v) := by
  rw [opAddr_eq]
  exact decodeR_regWord ((chanExists_iff x o.ch).mp h) v

/-- The word at the address of a channel register. -/
theorem decodeR_chanAddr {x : Variant} {c : Chan} {base : Nat} {l : Loc} (hbase : base ≤ 0xF0)
    (h : decodeLoc x (chanBank c) (BitVec.ofNat 8 (base + chanNum c)) = .ok l) (v : Byte) :
    decodeR x (chanAddr base c ++ v) = .ok (l.instr v) := by
  rw [chanAddr_eq c hbase, decodeR_append, h]
  rfl

end Sys2Proof.Machine
end

section
/-! SUPPORT. A register write as two port commands (30_encoding.md R101), and register writes of registers that a
variant lacks. -/

namespace Sys2Proof.Machine

/-! ### The two commands of a register write -/

theorem isRegWrite_of_encode {i : Instr} {w : BitVec 17} (h : encode i = .r w) : isRegWrite i = true := by
  cases i with
  | wra | wra2 | wrd | rd | texp0 | texp1 | tick | peakclr | reset => cases h
  | _ => rfl

/-- A register write is issued as an address write and a data write. -/
theorem commands_of_encode {i : Instr} {bank : Bool} {a v : Byte}
    (h : encode i = .r (BitVec.ofBool bank ++ a ++ v)) : i.commands = [addressWrite bank a, dataWrite v] := by
  unfold Instr.commands
  rw [h]
  dsimp only
  rw [BitVec.extractLsb'_append_eq_right, BitVec.extractLsb'_append_eq_left, traceW, bank_of_address,
    BitVec.extractLsb'_append_eq_right]

theorem exec_live {s : State} {i : Instr} (live : s.live = true) (ne : i ≠ .reset) :
    exec i s = .next (body i s.begin) := by
  rw [exec_eq_command ne, command_live live]

/-- The step of an address write latches bank and number; in V2 bank 1 is reached with `NEW = 1`, or at `0x05`
(47_register_writes.md R285). -/
theorem step_addressWrite {s : State} {bank : Bool} {a : Byte} {rest : List Command} (live : s.live = true)
    (has : HasBank s.cfg.variant bank) (reach : bank = true → s.glob.new = true ∨ a = 0x05)
    (input : s.input = addressWrite bank a :: rest) :
    step s = .next ({ s.begin with input := rest, addr := BitVec.ofBool bank ++ a }).returnsIrq := by
  have decoded := decodeP_append s.cfg.variant (0#1 ++ bit bank ++ 0#1) a
  rw [step_cons input]
  cases bank with
  | false =>
    have instr : (addressWrite false a).instr s.cfg.variant = .wra a := decoded
    rw [instr]
    exact exec_live (s := { s with input := rest }) live nofun
  | true =>
    have v2 : s.cfg.variant = .v2 := by
      cases hx : s.cfg.variant with
      | v1 => cases has hx
      | v2 => rfl
    have instr : (addressWrite true a).instr s.cfg.variant = .wra2 a := by
      rw [v2] at decoded ⊢
      exact decoded
    have latch : bankOneAddr s.cfg.variant s.glob.new a = BitVec.ofBool true ++ a := by
      rw [v2]
      exact if_pos (reach rfl)
    rw [instr, ← latch]
    exact exec_live (s := { s with input := rest }) live nofun

/-- A data write performs the register write of the latched address and the byte (47_register_writes.md R286). -/
theorem exec_wrd_of_decodeR {s : State} {v : Byte} {i : Instr} (live : s.live = true)
    (h : decodeR s.cfg.variant (s.addr ++ v) = .ok i) : exec (.wrd v) s = .next (regOp i s.begin).returnsIrq := by
  have write : regWrite s.addr v s.begin = regOp i s.begin := by
    unfold regWrite
    rw [begin_cfg, h]
  rw [exec_live (i := .wrd v) live nofun, ← write]
  rfl

theorem step_dataWrite {s : State} {v : Byte} {i : Instr} {rest : List Command} (live : s.live = true)
    (h : decodeR s.cfg.variant (s.addr ++ v) = .ok i) (input : s.input = dataWrite v :: rest) :
    step s = .next (regOp i ({ s with input := rest }).begin).returnsIrq := by
  have instr : (dataWrite v).instr s.cfg.variant = .wrd v := decodeP_append s.cfg.variant 0b001#3 v
  rw [step_cons input, instr]
  exact exec_wrd_of_decodeR (s := { s with input := rest }) live h

/-- A register write as an instruction of its own. -/
theorem exec_regWrite {s : State} {i : Instr} (live : s.live = true) (h : isRegWrite i = true) :
    exec i s = .next (regOp i s.begin) := by
  have ne : i ≠ .reset := by rintro rfl; cases h
  rw [exec_live live ne, body_eq_regOp h]

/-! ### Registers that a variant lacks -/

theorem updChan_of_absent {s : State} {c : Chan} (h : s.hasChan c = false) (f : Channel → Channel) :
    s.updChan c f = s := by
  unfold State.updChan
  rw [h]
  rfl

theorem updOp_of_absent {s : State} {o : OpRef} (h : s.hasChan o.ch = false) (f : Op → Op) : s.updOp o f = s :=
  updChan_of_absent h _

theorem v1_of_absent {s : State} {c : Chan} (h : s.hasChan c = false) : s.cfg.variant = .v1 := by
  cases hx : s.cfg.variant with
  | v1 => rfl
  | v2 => rw [hasChan_v2 hx] at h; cases h

/-- V1 has no pairs, so the key bit of a channel reaches its own two operators. -/
theorem konTargets_v1 {s : State} (h : s.cfg.variant = .v1) (c : Chan) :
    konTargets s c = [⟨c, .one⟩, ⟨c, .two⟩] := by
  have master : ∀ d, isMaster s d = false := fun d => by unfold isMaster; rw [h]; rfl
  have slave : isSlave s c = false := by
    unfold isSlave
    split
    · exact master _
    · rfl
  unfold konTargets
  rw [slave, master]
  rfl

theorem writeKonblk_of_absent {s : State} {c : Chan} (h : s.hasChan c = false) (kon : Bool) (block : BitVec 3)
    (hi : BitVec 2) : writeKonblk c kon block hi s = s := by
  unfold writeKonblk
  rw [konTargets_v1 (v1_of_absent h), updChan_of_absent h]
  simp only [List.foldl_cons, List.foldl_nil, updOp_of_absent, h]

theorem writeOpwave_of_absent {s : State} {o : OpRef} (h : s.hasChan o.ch = false) (ws : BitVec 3) :
    writeOpwave o ws s = s := by
  unfold writeOpwave
  split
  · rfl
  · exact updOp_of_absent h _

/-- A register write of a register that the variant lacks changes nothing (log entry 6). -/
theorem regOp_of_not_wf {s : State} {i : Instr} (h : i.wf s.cfg.variant = false) : regOp i s = s := by
  have absent : ∀ {c}, chanExists s.cfg.variant c = false → s.hasChan c = false := fun hc =>
    (hasChan_eq s _).trans hc
  have v1 : (s.cfg.variant == .v2) = false → s.cfg.variant = .v1 := by cases s.cfg.variant <;> decide
  cases i with
  | wra | wra2 | wrd | rd | texp0 | texp1 | tick | peakclr | reset => rfl
  | test | timer1 | timer2 | tctl | mode | rhythm => cases h
  | fourop => simp only [regOp, writeFourop, v1 h]
  | newmode => simp only [regOp, writeNewmode, v1 h]
  | opchar | oplevel | opad | opsr =>
    simp only [regOp, writeOpchar, writeOplevel, writeOpad, writeOpsr, updOp_of_absent (absent h)]
  | opwave => exact writeOpwave_of_absent (absent h) _
  | fnlo | fbcon => simp only [regOp, writeFnlo, writeFbcon, updChan_of_absent (absent h)]
  | konblk => exact writeKonblk_of_absent (absent h) _ _ _

end Sys2Proof.Machine
end

section
/-! The statements about the encoding. -/

namespace Sys2Proof.Machine

/-- Settles O1, format by format; a register write through its location. -/
theorem decodeOfEncodeIsTheInstruction : Obligations.DecodeOfEncodeIsTheInstruction := by
  intro x i wf
  generalize enc : encode i = e
  cases e with
  | p w => exact congrArg Except.ok (decodeP_of_encode wf enc)
  | r w => exact decodeR_of_encode wf enc
  | e ev => exact congrArg Except.ok (decodeE_of_encode enc)

/-- Settles O2: a location is decoded from its own bank, and a variant has the registers of the banks it has. -/
theorem decodedInstructionsExistInTheVariant : Obligations.DecodedInstructionsExistInTheVariant := by
  intro x e i h
  cases e with
  | p w =>
    cases h
    exact decodeP_wf x w
  | r w => exact decodeR_wf h
  | e ev =>
    cases h
    exact decodeE_wf x ev

/-- Settles O5: each address is that of a location, which `Loc.instr` takes the data byte apart for. -/
theorem fieldsAreWhereTheMapPlacesThem : Obligations.FieldsAreWhereTheMapPlacesThem := by
  intro x v
  have bank0 : HasBank x false := fun _ => rfl
  have bank1 : HasBank .v2 true := nofun
  have noBank1 : ∀ a : Byte, decodeR .v1 (BitVec.ofBool true ++ a ++ v) = .error .noBankOne := fun a => by
    rw [decodeR_append, decodeLoc_noBankOne]
    rfl
  refine ⟨fun o ho => ?_, fun c hc => ?_, ?_⟩
  · exact ⟨decodeR_opAddr ho .opchar v, decodeR_opAddr ho .oplevel v, decodeR_opAddr ho .opad v,
      decodeR_opAddr ho .opsr v, decodeR_opAddr ho .opwave v⟩
  · have has := (chanExists_iff x c).mp hc
    have fbcon := decodeR_chanAddr (by decide) (decodeLoc_number (l := .fbcon c) has) v
    exact ⟨decodeR_chanAddr (by decide) (decodeLoc_number (l := .fnlo c) has) v,
      decodeR_chanAddr (by decide) (decodeLoc_number (l := .konblk c) has) v, fbcon,
      (decodeR_chanAddr (by decide) (decodeLoc_fbcon_second has) v).trans fbcon.symm⟩
  · exact ⟨decodeR_regWord (l := .test) bank0 v, decodeR_regWord (l := .timer1) bank0 v,
      decodeR_regWord (l := .timer2) bank0 v, decodeR_regWord (l := .tctl) bank0 v,
      decodeR_regWord (l := .mode) bank0 v, decodeR_regWord (l := .rhythm) bank0 v,
      decodeR_regWord (l := .fourop) bank1 v, decodeR_regWord (l := .newmode) bank1 v, noBank1 0x04, noBank1 0x05⟩

/-- Settles O6, row by row. -/
theorem reservedLocationsAreTheListedOnes : Obligations.ReservedLocationsAreTheListedOnes := by
  intro x bank a has
  have lt := a.isLt
  rw [decodeLoc_eq_decodeRow has, decodeRow_error_iff bank a (by omega)]
  exact reservedByList_iff bank a

/-- Settles O8: the address write latches the address of the register, and the word that the data write then decodes is
the encoding of the instruction. -/
theorem addressThenDataRunsTheRegisterWrite : Obligations.AddressThenDataRunsTheRegisterWrite := by
  intro s i w rest live wf enc reach input
  have decoded := decodeR_of_encode wf enc
  obtain ⟨l, v, rfl, hi⟩ := encode_reg enc
  have has : HasBank s.cfg.variant l.bank := (instr_wf_iff _ l v).mp (hi ▸ wf)
  unfold regWord Loc.addr at enc reach decoded ⊢
  rw [bank_of_word, extractLsb'_append_mid] at reach
  rw [BitVec.extractLsb'_append_eq_left]
  rw [commands_of_encode enc] at input
  exact ⟨_, _, step_addressWrite live has reach input, exec_regWrite live (isRegWrite_of_encode enc),
    step_dataWrite live decoded rfl⟩

/-- Settles O25: every constructor's rule leaves a channel or a global register the variant lacks alone. -/
theorem absentRegistersChangeNothing : Obligations.AbsentRegistersChangeNothing := by
  intro s i live reg absent
  rw [exec_regWrite live reg, regOp_of_not_wf (s := s.begin) absent]
  rfl

/-- Settles O3, word by word. -/
theorem wordsOfTheSpecDecode : Obligations.WordsOfTheSpecDecode :=
  ⟨rfl, rfl, rfl, rfl, rfl, rfl, rfl⟩

/-- Settles O4, by the equation of the format-P decoder. -/
theorem portWordsDecodeByThePortNumber : Obligations.PortWordsDecodeByThePortNumber := by
  intro d
  have read : ∀ p : BitVec 2, (1#1 ++ p).getLsbD 2 = true ∧ (1#1 ++ p).extractLsb' 0 2 = p := by decide
  refine ⟨fun x => decodeP_append x _ d, fun x => decodeP_append x _ d, fun x => decodeP_append x _ d,
    decodeP_append .v2 _ d, decodeP_append .v1 _ d, fun x p => ?_⟩
  obtain ⟨rd, port⟩ := read p
  rw [decodeP_append, if_pos rd, port]

end Sys2Proof.Machine
end

section
/-! SUPPORT. What the phase step of a tick adds (41_phase_generator.md R162, R163): after the
advance of the vibrato counter in step 1 no step before it changes what the increment reads, and the increment is arithmetic
on the frequency code. -/

namespace Sys2Proof.Machine

/-! ### What the steps before the phase step keep -/

/-- All that the phase step reads is the same: of a channel only bus, peak and operators may differ, of an operator
only the envelope and the feedback cells, of the generators any but the vibrato counter. -/
structure TuneFrame (s t : State) : Prop where
  cfg      : t.cfg = s.cfg
  glob     : t.glob = s.glob
  lfoPmCnt : t.gens.lfoPmCnt = s.gens.lfoPmCnt
  chan     : ∀ c, t.chan c = { s.chan c with
    chanout := (t.chan c).chanout, peak := (t.chan c).peak, slot1 := (t.chan c).slot1, slot2 := (t.chan c).slot2 }
  op       : ∀ o, t.op o = { s.op o with
    vol := (t.op o).vol, phase := (t.op o).phase, fb0 := (t.op o).fb0, fb1 := (t.op o).fb1 }

namespace TuneFrame

variable {s t u : State}

theorem trans (h : TuneFrame s t) (k : TuneFrame t u) : TuneFrame s u where
  cfg := k.cfg.trans h.cfg
  glob := k.glob.trans h.glob
  lfoPmCnt := k.lfoPmCnt.trans h.lfoPmCnt
  chan c := by rw [k.chan, h.chan]
  op o := by rw [k.op, h.op]

/-- A step that leaves the channels alone. -/
theorem of_chans (cfg : t.cfg = s.cfg) (glob : t.glob = s.glob) (cnt : t.gens.lfoPmCnt = s.gens.lfoPmCnt)
    (chans : t.chans = s.chans) : TuneFrame s t where
  cfg := cfg
  glob := glob
  lfoPmCnt := cnt
  chan c := by unfold State.chan; rw [chans]
  op o := by unfold State.op State.chan; rw [chans]

theorem of_busFrame (h : BusFrame s t) : TuneFrame s t where
  cfg := h.cfg
  glob := h.glob
  lfoPmCnt := congrArg Gens.lfoPmCnt h.gens
  chan c := by rw [h.chan c]
  op o := by rw [h.op o]

theorem mixStep (s : State) : TuneFrame s (mixStep s) := by
  rw [mixStep_frame]
  exact of_chans rfl rfl rfl rfl

theorem peakStep (s : State) : TuneFrame s (peakStep s) where
  cfg := by rw [peakStep_frame]
  glob := by rw [peakStep_frame]
  lfoPmCnt := by rw [peakStep_frame]
  chan c := by rw [peakStep_chan]; split <;> rfl
  op o := by
    unfold State.op
    rw [peakStep_chan]
    split
    · cases o.slot <;> rfl
    · rfl

theorem egTick (s : State) : TuneFrame s (egTick s) where
  cfg := by rw [egTick_frame]
  glob := by rw [egTick_frame]
  lfoPmCnt := by rw [egTick_frame]
  chan c := by rw [egTick_chan]; split <;> rfl
  op o := by
    unfold State.op
    rw [egTick_chan]
    split
    · rw [mapOps_op, egStep_frame]; rfl
    · rfl

theorem egAdvance (s : State) : TuneFrame s (egAdvance s) :=
  repeat_keeps (P := TuneFrame s) (fun t h => h.trans (egTick t)) _ (of_chans rfl rfl rfl rfl)

/-- Steps 2 to 6 of a tick change nothing that the phase step reads. -/
theorem beforePhaseAdvance (s : State) :
    TuneFrame (lfoAdvance s) (Machine.egAdvance (Machine.peakStep (sampleSteps s))) := by
  have sample : TuneFrame (lfoAdvance s) (sampleSteps s) :=
    (of_busFrame ((BusFrame.clearOut _).trans (BusFrame.channelsStep _))).trans (mixStep _)
  exact sample.trans ((peakStep _).trans (egAdvance _))

theorem hasChan (h : TuneFrame s t) (c : Chan) : t.hasChan c = s.hasChan c := by
  unfold State.hasChan; rw [h.cfg]

theorem blockFnum (h : TuneFrame s t) (c : Chan) : blockFnum t c = blockFnum s c := by
  have master : ∀ m, isMaster t m = isMaster s m := fun m => by unfold isMaster extOf; rw [h.cfg, h.glob]
  have source : fsrc t c = fsrc s c := by
    unfold fsrc; split
    · rw [master]
    · rfl
  unfold Machine.blockFnum; rw [source, h.chan]

theorem phaseIncrement (h : TuneFrame s t) (o : OpRef) : phaseIncrement t o = phaseIncrement s o := by
  unfold Machine.phaseIncrement incr vibratoOffset lfoPmStep
  rw [h.op o, h.blockFnum, h.cfg, h.glob, h.lfoPmCnt]

end TuneFrame

theorem noiseAdvance_op (s : State) (o : OpRef) : (noiseAdvance s).op o = s.op o := rfl

/-- An accumulator after a tick: advanced once, by the increment at this tick's vibrato counter. -/
theorem tickSteps_cnt (s : State) {o : OpRef} (has : s.hasChan o.ch = true) :
    ((tickSteps s).op o).cnt = (s.op o).cnt + phaseIncrement (lfoAdvance s) o := by
  have before := TuneFrame.beforePhaseAdvance s
  have present : (egAdvance (peakStep (sampleSteps s))).hasChan o.ch = true := (before.hasChan o.ch).trans has
  have advanced : (tickSteps s).op o = phaseStep (egAdvance (peakStep (sampleSteps s))) o := by
    rw [tickSteps, advanceSteps, noiseAdvance_op, State.op, phaseAdvance_chan, if_pos present, mapOps_op]
  rw [advanced, phaseStep, before.phaseIncrement, before.op]
  rfl

/-! ### The increment as arithmetic -/

/-- The frequency code whose increment a tick adds: with vibrato the code moved by the offset (41_phase_generator.md
R162). -/
def phaseCode (s : State) (o : OpRef) : BitVec 13 :=
  let bf := blockFnum s o.ch
  if (s.op o).vib then bf + BitVec.ofInt 13 (vibratoOffset s bf) else bf

/-- The case of a zero offset needs no rule of its own: it leaves the code. -/
theorem phaseIncrement_eq_incrOf (s : State) (o : OpRef) :
    phaseIncrement s o = incrOf s.cfg (phaseCode s o) (s.op o).mult := by
  unfold phaseIncrement phaseCode incr
  dsimp only
  split
  · split
    · rfl
    · next zero =>
      rw [Decidable.not_not.mp zero]
      exact congrArg (incrOf s.cfg · _) (BitVec.add_zero _).symm
  · rfl

theorem incrOf_toNat (cfg : Config) (bf : BitVec 13) (mult : BitVec 4) :
    (incrOf cfg bf mult).toNat =
      fnTab cfg (bf.toNat % 1024) / 2 ^ (7 - bf.toNat / 1024) * mul2 cfg mult % 2 ^ 32 := by
  have block : (bf.extractLsb' 10 3).toNat = bf.toNat / 1024 := by
    rw [BitVec.extractLsb'_toNat, Nat.shiftRight_eq_div_pow]
    have := bf.isLt
    omega
  have fnum : (bf.extractLsb' 0 10).toNat = bf.toNat % 1024 := by
    rw [BitVec.extractLsb'_toNat, Nat.shiftRight_zero]
  unfold incrOf fcOf
  rw [BitVec.toNat_ofNat, block, fnum, Nat.shiftRight_eq_div_pow]

theorem lfoPmStep_eq (s : State) : lfoPmStep s = s.gens.lfoPmCnt.toNat / 2 ^ 24 % 8 := by
  unfold lfoPmStep
  rw [Nat.shiftRight_eq_div_pow]
  exact Nat.and_two_pow_sub_one_eq_mod _ 3

theorem vibratoOffset_eq (s : State) (bf : BitVec 13) :
    vibratoOffset s bf =
      lfoPmTab s.cfg (bf.toNat / 128 % 8) s.glob.dvb (s.gens.lfoPmCnt.toNat / 2 ^ 24 % 8) := by
  unfold vibratoOffset
  rw [lfoPmStep_eq, BitVec.extractLsb'_toNat, Nat.shiftRight_eq_div_pow]

/-- A code moved by an offset, modulo `2^13`. -/
theorem add_ofInt_toNat (bf : BitVec 13) (off : Int) :
    (bf + BitVec.ofInt 13 off).toNat = (((bf.toNat : Int) + off) % 8192).toNat := by
  have moved : bf + BitVec.ofInt 13 off = BitVec.ofInt 13 (bf.toNat + off) := by
    rw [BitVec.ofInt_add, BitVec.ofInt_natCast, BitVec.ofNat_toNat, BitVec.setWidth_eq]
  rw [moved, BitVec.toNat_ofInt]
  rfl

theorem phaseCode_toNat (s : State) (o : OpRef) :
    (phaseCode s o).toNat =
      if (s.op o).vib then
        ((((blockFnum s o.ch).toNat : Int) + vibratoOffset s (blockFnum s o.ch)) % 8192).toNat
      else (blockFnum s o.ch).toNat := by
  unfold phaseCode
  dsimp only
  split
  · exact add_ofInt_toNat _ _
  · rfl

end Sys2Proof.Machine
end

section
/-! The statement about the phase generator. -/

namespace Sys2Proof.Machine

/-- Settles O36: the accumulator is advanced once, by the increment of the code at this tick's vibrato counter. -/
theorem tickAddsThePhaseIncrement : Obligations.TickAddsThePhaseIncrement := by
  intro s o live has
  refine ⟨tickSteps s.begin, exec_live live nofun, ?_⟩
  have counter : (lfoAdvance s.begin).gens.lfoPmCnt.toNat =
      (s.gens.lfoPmCnt.toNat + s.cfg.rates.lfoPmInc.toNat) % 2 ^ 32 := BitVec.toNat_add _ _
  have code := phaseCode_toNat (lfoAdvance s.begin) o
  rw [vibratoOffset_eq, counter] at code
  rw [tickSteps_cnt s.begin has, BitVec.toNat_add, phaseIncrement_eq_incrOf, incrOf_toNat, code, Nat.add_mod_mod]
  rfl

end Sys2Proof.Machine
end

section
/-! SUPPORT. The step of one envelope as arithmetic, one equation for each phase (42_envelope_generator.md R182, R190 to
R196), and how attenuation and phase move in each (R197, R198). -/

namespace Sys2Proof.Machine

/-! ### Due steps and increments -/

/-- A step at one of the three rates is due: the low bits of the envelope counter are 0 (42_envelope_generator.md R182). -/
abbrev RateDue (s : State) (o : OpRef) (which : EgRate) : Prop := s.gens.egCnt.toNat % 2 ^ (egPar s o which).1 = 0

/-- The increment of a due step at one of the three rates (42_envelope_generator.md R182). -/
def rateInc (s : State) (o : OpRef) (which : EgRate) : Nat := egIncOf s (egPar s o which).1 (egPar s o which).2

theorem egDue_iff (s : State) (sh : Nat) : egDue s sh = true ↔ s.gens.egCnt.toNat % 2 ^ sh = 0 := by
  unfold egDue
  rw [beq_iff_eq, Nat.one_shiftLeft, Nat.and_two_pow_sub_one_eq_mod]

theorem rateInc_le {s : State} (h : boundedConfig s.cfg = true) (o : OpRef) (which : EgRate) : rateInc s o which ≤ 8 :=
  egInc_bounded h _ _

/-- The attack value falls by `(vol + 1) * inc / 8`, rounded up. -/
theorem attackValue_eq (vol : BitVec 9) (inc : Nat) :
    attackValue vol inc = vol.toNat - (((vol.toNat + 1) * inc + 7) / 8 : Nat) := by
  have product : (-(vol.toNat : Int) - 1) * (inc : Int) = -(((vol.toNat + 1) * inc : Nat) : Int) := by
    rw [Int.natCast_mul, Int.natCast_add, Int.natCast_one, ← Int.neg_mul]
    exact congrArg (· * (inc : Int)) (by omega)
  unfold attackValue asr
  rw [product, Int.shiftRight_eq_div_pow]
  omega

theorem attackValue_lt {vol : BitVec 9} {inc : Nat} (h : 0 < inc) : attackValue vol inc < vol.toNat := by
  have product : 0 < (vol.toNat + 1) * inc := Nat.mul_pos (Nat.succ_pos _) h
  rw [attackValue_eq]
  omega

/-- A positive attack value is kept by the narrowing. -/
theorem toNat_attackValue {vol : BitVec 9} {inc : Nat} (h : 0 < attackValue vol inc) :
    ((BitVec.ofInt 9 (attackValue vol inc)).toNat : Int) = attackValue vol inc := by
  have le := attackValue_le vol inc
  have := vol.isLt
  rw [BitVec.toNat_ofInt]
  omega

theorem toNat_ofNat_min (n : Nat) : (BitVec.ofNat 9 (min 511 n)).toNat = min 511 n := by
  rw [BitVec.toNat_ofNat]
  omega

/-! ### One equation for each phase -/

section
variable {s : State} {o : OpRef}

theorem egStep_of_att (ph : (s.op o).phase = .att) :
    egStep s o =
      if RateDue s o .attack then
        if attackValue (s.op o).vol (rateInc s o .attack) ≤ 0 then { s.op o with vol := 0, phase := .dec }
        else { s.op o with vol := BitVec.ofInt 9 (attackValue (s.op o).vol (rateInc s o .attack)) }
      else s.op o := by
  unfold egStep RateDue
  rw [ph]
  simp only [attackStep, egDue_iff]
  rfl

theorem egStep_of_dec (ph : (s.op o).phase = .dec) :
    egStep s o =
      if RateDue s o .decay then
        { s.op o with
          vol := BitVec.ofNat 9 ((s.op o).vol.toNat + rateInc s o .decay)
          phase := if slEff s.cfg (s.op o).sl ≤ (s.op o).vol.toNat + rateInc s o .decay then .sus else .dec }
      else s.op o := by
  unfold egStep RateDue
  rw [ph]
  simp only [decayStep, egDue_iff]
  rfl

theorem egStep_of_sus (ph : (s.op o).phase = .sus) :
    egStep s o =
      if (s.op o).egt = false ∧ RateDue s o .release then
        { s.op o with vol := BitVec.ofNat 9 (min 511 ((s.op o).vol.toNat + rateInc s o .release)) }
      else s.op o := by
  unfold egStep RateDue
  rw [ph]
  simp only [sustainStep, egDue_iff]
  cases egt : (s.op o).egt
  · simp only [true_and]; rfl
  · rfl

/-- The narrowing and the stop at 511 are one: at or past 511 the operator is at 511 and off. -/
theorem egStep_of_rel (ph : (s.op o).phase = .rel) :
    egStep s o =
      if RateDue s o .release then
        { s.op o with
          vol := BitVec.ofNat 9 (min 511 ((s.op o).vol.toNat + rateInc s o .release))
          phase := if 511 ≤ (s.op o).vol.toNat + rateInc s o .release then .off else .rel }
      else s.op o := by
  unfold egStep RateDue
  rw [ph]
  simp only [releaseStep, egDue_iff]
  change (if _ then (if 511 ≤ (s.op o).vol.toNat + rateInc s o .release then _ else _) else _) = _
  by_cases top : 511 ≤ (s.op o).vol.toNat + rateInc s o .release
  · rw [if_pos top, if_pos top, Nat.min_eq_left top]; rfl
  · rw [if_neg top, if_neg top, Nat.min_eq_right (by omega), ← ph]; rfl

theorem egStep_of_off (ph : (s.op o).phase = .off) : egStep s o = s.op o := by
  unfold egStep
  rw [ph]

/-! ### How attenuation and phase move -/

theorem egStep_att_move (ph : (s.op o).phase = .att) :
    ((egStep s o).phase = .att ∨ ((egStep s o).phase = .dec ∧ (egStep s o).vol = 0)) ∧
      (egStep s o).vol.toNat ≤ (s.op o).vol.toNat := by
  rw [egStep_of_att ph]
  split
  · split
    · exact ⟨.inr ⟨rfl, rfl⟩, Nat.zero_le _⟩
    · next pos =>
      have narrow := toNat_attackValue (Int.not_le.mp pos)
      have le := attackValue_le (s.op o).vol (rateInc s o .attack)
      exact ⟨.inl ph, Int.ofNat_le.mp (Int.le_trans (Int.le_of_eq narrow) le)⟩
  · exact ⟨.inl ph, Nat.le_refl _⟩

/-- In decay the attenuation is at most 499, so that a step of at most 8 stays inside 9 bits. -/
theorem toNat_decay (bounded : boundedConfig s.cfg = true) (safe : OpSafe (s.op o)) (ph : (s.op o).phase = .dec) :
    (BitVec.ofNat 9 ((s.op o).vol.toNat + rateInc s o .decay)).toNat = (s.op o).vol.toNat + rateInc s o .decay := by
  have vol := safe.dec_vol ph
  have inc := rateInc_le bounded o .decay
  rw [BitVec.toNat_ofNat]
  omega

theorem egStep_dec_move (bounded : boundedConfig s.cfg = true) (safe : OpSafe (s.op o)) (ph : (s.op o).phase = .dec) :
    ((egStep s o).phase = .dec ∨
        ((egStep s o).phase = .sus ∧ slEff s.cfg (s.op o).sl ≤ (egStep s o).vol.toNat)) ∧
      (s.op o).vol.toNat ≤ (egStep s o).vol.toNat := by
  rw [egStep_of_dec ph]
  split
  · dsimp only
    rw [toNat_decay bounded safe ph]
    refine ⟨?_, Nat.le_add_right _ _⟩
    split
    · next reached => exact .inr ⟨rfl, reached⟩
    · exact .inl rfl
  · exact ⟨.inl ph, Nat.le_refl _⟩

/-- A step that stops at 511 does not lower the attenuation. -/
theorem le_toNat_min (vol : BitVec 9) (inc : Nat) : vol.toNat ≤ (BitVec.ofNat 9 (min 511 (vol.toNat + inc))).toNat := by
  have := vol.isLt
  rw [toNat_ofNat_min]
  omega

theorem egStep_sus_move (ph : (s.op o).phase = .sus) :
    (egStep s o).phase = .sus ∧ (s.op o).vol.toNat ≤ (egStep s o).vol.toNat := by
  rw [egStep_of_sus ph]
  split
  · exact ⟨ph, le_toNat_min _ _⟩
  · exact ⟨ph, Nat.le_refl _⟩

theorem egStep_rel_move (ph : (s.op o).phase = .rel) :
    ((egStep s o).phase = .rel ∨ ((egStep s o).phase = .off ∧ (egStep s o).vol = 511)) ∧
      (s.op o).vol.toNat ≤ (egStep s o).vol.toNat := by
  rw [egStep_of_rel ph]
  split
  · refine ⟨?_, le_toNat_min _ _⟩
    dsimp only
    split
    · next top => rw [Nat.min_eq_left top]; exact .inr ⟨rfl, rfl⟩
    · exact .inl rfl
  · exact ⟨.inl ph, Nat.le_refl _⟩

/-! ### Instant attack -/

/-- At a rate of `AR_INSTANT` or more every attack step is due and its increments are row 13 (10_state.md R56). -/
theorem egPar_instant (h : arInstant s.cfg.variant ≤ scaledRate s o .attack) : egPar s o .attack = (0, 13) :=
  if_pos ⟨rfl, h⟩

theorem attackValue_eight (vol : BitVec 9) : attackValue vol 8 = -1 := by
  rw [attackValue_eq]
  omega

theorem egStep_instant (ph : (s.op o).phase = .att) (h : arInstant s.cfg.variant ≤ scaledRate s o .attack)
    (row : ∀ j < 8, egIncTab s.cfg 13 j = 8) : egStep s o = { s.op o with vol := 0, phase := .dec } := by
  have par := egPar_instant h
  have due : RateDue s o .attack := by rw [RateDue, par]; exact Nat.mod_one _
  have inc : rateInc s o .attack = 8 := by
    rw [rateInc, par]
    exact row _ (Nat.lt_succ_of_le Nat.and_le_right)
  rw [egStep_of_att ph, if_pos due, inc, attackValue_eight]
  rfl

end

/-- Row 13 of `EG_INC` (40_tables.md R147). -/
theorem egIncTab_std_instant (x : Variant) : ∀ j < 8, egIncTab (stdConfig x) 13 j = 8 := by
  cases x <;> decide

end Sys2Proof.Machine
end

section
/-! SUPPORT. Step 6 of a tick natively (42_envelope_generator.md R181, 48_sample_tick.md R345): the other steps change
nothing that an envelope step reads, so an envelope after the tick is one step on from the envelope before it. -/

namespace Sys2Proof.Machine

/-- All that an envelope step reads and writes is the same: of a channel the frequency code, of an operator all but the
accumulator and the feedback cells, of the generators the two envelope counters. -/
structure EnvFrame (s t : State) : Prop where
  cfg     : t.cfg = s.cfg
  glob    : t.glob = s.glob
  egCnt   : t.gens.egCnt = s.gens.egCnt
  egTimer : t.gens.egTimer = s.gens.egTimer
  code    : ∀ c, (t.chan c).block ++ (t.chan c).fnum = (s.chan c).block ++ (s.chan c).fnum
  op      : ∀ o, t.op o = { s.op o with cnt := (t.op o).cnt, fb0 := (t.op o).fb0, fb1 := (t.op o).fb1 }

namespace EnvFrame

variable {s t u : State}

theorem trans (h : EnvFrame s t) (k : EnvFrame t u) : EnvFrame s u where
  cfg := k.cfg.trans h.cfg
  glob := k.glob.trans h.glob
  egCnt := k.egCnt.trans h.egCnt
  egTimer := k.egTimer.trans h.egTimer
  code c := (k.code c).trans (h.code c)
  op o := by rw [k.op, h.op]

theorem of_busFrame (h : BusFrame s t) : EnvFrame s t where
  cfg := h.cfg
  glob := h.glob
  egCnt := congrArg Gens.egCnt h.gens
  egTimer := congrArg Gens.egTimer h.gens
  code c := by rw [h.chan c]
  op o := by rw [h.op o]

theorem lfoAdvance (s : State) : EnvFrame s (lfoAdvance s) := ⟨rfl, rfl, rfl, rfl, fun _ => rfl, fun _ => rfl⟩

theorem mixStep (s : State) : EnvFrame s (mixStep s) := by
  rw [mixStep_frame]
  exact ⟨rfl, rfl, rfl, rfl, fun _ => rfl, fun _ => rfl⟩

theorem peakStep (s : State) : EnvFrame s (peakStep s) where
  cfg := by rw [peakStep_frame]
  glob := by rw [peakStep_frame]
  egCnt := by rw [peakStep_frame]
  egTimer := by rw [peakStep_frame]
  code c := by rw [peakStep_chan]; split <;> rfl
  op o := by
    unfold State.op
    rw [peakStep_chan]
    split
    · cases o.slot <;> rfl
    · rfl

theorem phaseAdvance (s : State) : EnvFrame s (phaseAdvance s) where
  cfg := by rw [phaseAdvance_frame]
  glob := by rw [phaseAdvance_frame]
  egCnt := by rw [phaseAdvance_frame]
  egTimer := by rw [phaseAdvance_frame]
  code c := by rw [phaseAdvance_chan]; split <;> rfl
  op o := by
    unfold State.op
    rw [phaseAdvance_chan]
    split
    · rw [mapOps_op]; rfl
    · rfl

theorem noiseAdvance (s : State) : EnvFrame s (noiseAdvance s) := ⟨rfl, rfl, rfl, rfl, fun _ => rfl, fun _ => rfl⟩

/-- Steps 1 to 5 of a tick change nothing that an envelope step reads. -/
theorem beforeEgAdvance (s : State) : EnvFrame s (Machine.peakStep (sampleSteps s)) :=
  (lfoAdvance s).trans <| (of_busFrame ((BusFrame.clearOut _).trans (BusFrame.channelsStep _))).trans <|
    (mixStep _).trans (peakStep _)

/-- Steps 7 and 8 of a tick change nothing that an envelope step writes. -/
theorem afterEgAdvance (s : State) : EnvFrame s (Machine.noiseAdvance (Machine.phaseAdvance s)) :=
  (phaseAdvance s).trans (noiseAdvance _)

theorem hasChan (h : EnvFrame s t) (c : Chan) : t.hasChan c = s.hasChan c := by
  unfold State.hasChan; rw [h.cfg]

theorem blockFnum (h : EnvFrame s t) (c : Chan) : blockFnum t c = blockFnum s c := by
  have master : ∀ m, isMaster t m = isMaster s m := fun m => by unfold isMaster extOf; rw [h.cfg, h.glob]
  have source : fsrc t c = fsrc s c := by
    unfold fsrc; split
    · rw [master]
    · rfl
  unfold Machine.blockFnum; rw [source, h.code]

theorem egPar (h : EnvFrame s t) (o : OpRef) (which : EgRate) : egPar t o which = egPar s o which := by
  have kcode : kcode t o.ch = kcode s o.ch := by unfold Machine.kcode; rw [h.blockFnum, h.glob]
  have ksr : ksr t o = ksr s o := by unfold Machine.ksr; rw [kcode, h.op o]
  have scaled : scaledRate t o which = scaledRate s o which := by
    unfold scaledRate; rw [ksr, h.op o]
  unfold Machine.egPar; rw [scaled, h.cfg]

/-- An envelope step reads nothing but what the frame keeps. -/
theorem egStep (h : EnvFrame s t) (o : OpRef) :
    egStep t o = { egStep s o with cnt := (t.op o).cnt, fb0 := (t.op o).fb0, fb1 := (t.op o).fb1 } := by
  have due : ∀ which, RateDue t o which ↔ RateDue s o which := fun which => by
    unfold RateDue; rw [h.egPar, h.egCnt]
  have inc : ∀ which, rateInc t o which = rateInc s o which := fun which => by
    unfold rateInc egIncOf; rw [h.egPar, h.egCnt, h.cfg]
  obtain ⟨cnt, fb0, fb1, same⟩ : ∃ cnt fb0 fb1, t.op o = { s.op o with cnt := cnt, fb0 := fb0, fb1 := fb1 } :=
    ⟨_, _, _, h.op o⟩
  have phase : (t.op o).phase = (s.op o).phase := by rw [same]
  cases ph : (s.op o).phase with
  | att =>
    rw [egStep_of_att ph, egStep_of_att (phase.trans ph)]
    simp only [due, inc, same]
    split
    · split <;> rfl
    · rfl
  | dec =>
    rw [egStep_of_dec ph, egStep_of_dec (phase.trans ph)]
    simp only [due, inc, same, h.cfg]
    split <;> rfl
  | sus =>
    rw [egStep_of_sus ph, egStep_of_sus (phase.trans ph)]
    simp only [due, inc, same]
    split <;> rfl
  | rel =>
    rw [egStep_of_rel ph, egStep_of_rel (phase.trans ph)]
    simp only [due, inc, same]
    split <;> rfl
  | off => rw [egStep_of_off ph, egStep_of_off (phase.trans ph), same]

end EnvFrame

/-- The state in which a round of step 6 steps the envelopes: the counter is advanced first (48_sample_tick.md R345). -/
abbrev egCounted (s : State) : State := { s with gens := { s.gens with egCnt := s.gens.egCnt + 1 } }

theorem EnvFrame.egCounted {s t : State} (h : EnvFrame s t) : EnvFrame (egCounted s) (egCounted t) where
  cfg := h.cfg
  glob := h.glob
  egCnt := congrArg (· + 1) h.egCnt
  egTimer := h.egTimer
  code := h.code
  op := h.op

/-- An operator after one round of step 6. -/
theorem egTick_op (s : State) (o : OpRef) :
    (egTick s).op o = if s.hasChan o.ch = true then egStep (egCounted s) o else s.op o := by
  unfold State.op
  rw [egTick_chan]
  split
  · exact mapOps_op _ _ _
  · rfl

/-- In a safe state a round steps every operator: one of an absent channel is off, and its step keeps it. -/
theorem egTick_op_of_safe {s : State} (h : SafeState s) (o : OpRef) : (egTick s).op o = egStep (egCounted s) o := by
  rw [egTick_op]
  split
  · rfl
  · next absent =>
    have off : (s.op o).phase = .off := by
      unfold State.op
      rw [h.absent_reset _ (Bool.eq_false_iff.mpr absent)]
      cases o.slot <;> rfl
    exact (egStep_of_off (s := egCounted s) off).symm

/-- At the native rates `EG_OVF` fits exactly once, and the accumulated time is left as it was (48_sample_tick.md R345). -/
theorem egAdvance_native {s : State} (rates : s.cfg.rates = nativeRates) (timer : s.gens.egTimer.toNat < 65536) :
    egAdvance s = egTick s := by
  have rounds : (s.gens.egTimer.toNat + 65536) / 65536 = 1 := by omega
  have left : (s.gens.egTimer.toNat + 65536) % 65536 = s.gens.egTimer.toNat := by omega
  unfold egAdvance
  rw [rates]
  change Nat.repeat egTick ((s.gens.egTimer.toNat + 65536) / 65536)
    { s with gens := { s.gens with egTimer := BitVec.ofNat 32 ((s.gens.egTimer.toNat + 65536) % 65536) } } = _
  rw [rounds, left, BitVec.ofNat_toNat, BitVec.setWidth_eq]
  rfl

section
variable {s : State} (rates : s.cfg.rates = nativeRates) (timer : s.gens.egTimer.toNat < 65536)
include rates timer

/-- Natively a tick moves the envelopes as one round of step 6 does. -/
theorem tickSteps_native :
    ∃ u, EnvFrame s u ∧ EnvFrame (egTick u) (tickSteps s) := by
  have before := EnvFrame.beforeEgAdvance s
  refine ⟨peakStep (sampleSteps s), before, ?_⟩
  rw [tickSteps, advanceSteps, egAdvance_native (by rw [before.cfg, rates]) (by rw [before.egTimer]; exact timer)]
  exact .afterEgAdvance _

theorem tickSteps_native_counters :
    (tickSteps s).gens.egCnt = s.gens.egCnt + 1 ∧ (tickSteps s).gens.egTimer = s.gens.egTimer := by
  obtain ⟨u, before, after⟩ := tickSteps_native rates timer
  have round : (egTick u).gens = { u.gens with egCnt := u.gens.egCnt + 1 } := by rw [egTick_frame]
  rw [after.egCnt, after.egTimer, round, ← before.egCnt, ← before.egTimer]
  exact ⟨rfl, rfl⟩

theorem tickSteps_native_envelope {o : OpRef} (has : s.hasChan o.ch = true) :
    ((tickSteps s).op o).vol = (egStep (egCounted s) o).vol ∧
      ((tickSteps s).op o).phase = (egStep (egCounted s) o).phase := by
  obtain ⟨u, before, after⟩ := tickSteps_native rates timer
  rw [after.op, egTick_op, if_pos ((before.hasChan _).trans has), before.egCounted.egStep]
  exact ⟨rfl, rfl⟩

end

end Sys2Proof.Machine
end

section
/-! The statements about the envelope generator. -/

namespace Sys2Proof.Machine

/-- Settles O27: the five cases are the conditions of what a key-on and a key-off leave. -/
theorem keyEventsFollowTheKeyMask : Obligations.KeyEventsFollowTheKeyMask := by
  intro b p
  rw [keyOn_spec, keyOff_spec]
  refine ⟨fun free => ?_, fun held => ?_, fun free => ?_, fun held more => ?_, fun held last => ?_⟩
  · have added : p.key ||| b = b := by rw [free]; exact BitVec.zero_or
    rw [if_pos free, if_pos free, added]
  · rw [if_neg held, if_neg held]
  · have kept : p.key &&& ~~~b = p.key := by rw [free]; exact BitVec.zero_and
    rw [if_neg fun c => c.1 free, kept]
  · rw [if_neg fun c => more c.2.1]
  · rw [last]
    by_cases off : p.phase = .off
    · rw [if_neg fun c => c.2.2 off, if_pos off, off]
    · rw [if_pos ⟨held, rfl, off⟩, if_neg off]

/-- Settles O38: the shifted product of R190 is the rounded-up quotient, and a positive value fits the nine bits. -/
theorem attackStepFollowsTheCurve : Obligations.AttackStepFollowsTheCurve := by
  intro s o ph
  dsimp only
  rw [egStep_of_att ph, ← attackValue_eq]
  refine ⟨fun idle => if_neg idle, fun due arrived => ?_, fun due pos => ?_⟩
  · rw [if_pos due]; exact if_pos arrived
  · rw [if_pos due, rateInc, if_neg (Int.not_le.mpr pos)]
    have narrow := toNat_attackValue pos
    exact ⟨rfl, narrow, fun inc => Int.ofNat_lt.mp (Int.lt_of_le_of_lt (Int.le_of_eq narrow) (attackValue_lt inc))⟩

/-- Settles O39: on a safe operator in decay the sum fits nine bits; sustain and release stop at 511. -/
theorem fallingStepsAreLinear : Obligations.FallingStepsAreLinear := by
  intro s o bounded safe
  dsimp only
  refine ⟨egStep_frame s o, fun ph due => ?_, fun ph held due => ?_, fun ph due => ?_, fun ph idle => ?_,
    fun ph _ idle => ?_, fun ph idle => ?_, fun ph held => ?_, egStep_of_off⟩
  · rw [egStep_of_dec ph, if_pos due]
    exact ⟨toNat_decay bounded safe ph, rfl⟩
  · rw [egStep_of_sus ph, if_pos ⟨held, due⟩]
    exact ⟨toNat_ofNat_min _, ph⟩
  · rw [egStep_of_rel ph, if_pos due]
    exact ⟨toNat_ofNat_min _, rfl⟩
  · rw [egStep_of_dec ph, if_neg idle]
  · rw [egStep_of_sus ph, if_neg fun c => idle c.2]
  · rw [egStep_of_rel ph, if_neg idle]
  · rw [egStep_of_sus ph, if_neg fun c => by rw [held] at c; exact nomatch c.1]

/-- Settles O40: a round of step 6 is one envelope step of every operator, which moves as its phase says. -/
theorem envelopeStepsAreMonotone : Obligations.EnvelopeStepsAreMonotone := by
  intro s o h
  dsimp only
  rw [egTick_op_of_safe h]
  split
  · next ph => exact egStep_att_move (s := egCounted s) ph
  · next ph => exact egStep_dec_move (s := egCounted s) h.cfg_bounded (h.op_ok o).safe ph
  · next ph => exact egStep_sus_move (s := egCounted s) ph
  · next ph => exact egStep_rel_move (s := egCounted s) ph
  · next ph => exact egStep_of_off (s := egCounted s) ph

/-- Settles O35: step 6 is one round, and no other step of the tick touches what that round reads or writes. -/
theorem nativeTickStepsEveryEnvelopeOnce : Obligations.NativeTickStepsEveryEnvelopeOnce := by
  intro s live rates timer
  obtain ⟨cnt, left⟩ := tickSteps_native_counters (s := s.begin) rates timer
  exact ⟨tickSteps s.begin, exec_live live nofun, cnt, left,
    fun _ has => tickSteps_native_envelope (s := s.begin) rates timer has⟩

/-- Settles O41: the one envelope step of the tick is due and computes -1, from any attenuation. -/
theorem instantAttackTakesOneTick : Obligations.InstantAttackTakesOneTick := by
  intro x s o live cfg timer has ph fast
  obtain ⟨t, run, -, -, stepped⟩ := nativeTickStepsEveryEnvelopeOnce s live (by rw [cfg]; rfl) (by rw [timer]; decide)
  have instant : arInstant s.cfg.variant ≤ scaledRate s o .attack := by
    rw [cfg]
    rcases fast with fast | ⟨rfl, ar⟩
    · exact fast
    · have top : rate (s.op o).ar = 76 := by rw [ar]; rfl
      calc 76 = rate (s.op o).ar := top.symm
        _ ≤ scaledRate s o .attack := Nat.le_add_right _ _
  have arrived := egStep_instant (s := egCounted s) ph instant (cfg ▸ egIncTab_std_instant x)
  obtain ⟨vol, phase⟩ := stepped o has
  rw [arrived] at vol phase
  exact ⟨t, run, vol, phase⟩

end Sys2Proof.Machine
end

section
/-! SUPPORT. Tables in rows of 16 entry by entry, and the waveforms of the standard tables as what 40_tables.md R133 to R141
make of the logarithmic sine. -/

namespace Sys2Proof.Machine

/-! ### Entries of tables in rows of 16 -/

/-- Every row has its 16 entries. -/
abbrev FullRows (t : List (List Nat)) : Prop := ∀ r ∈ t, r.length = 16

theorem rows16_eq (t : List (List Nat)) (i : Nat) : rows16 t i = (t[i / 16]?.getD [])[i % 16]?.getD 0 := by
  rw [rows16, List.getD_eq_getElem?_getD, List.getD_eq_getElem?_getD]

theorem rows16_cons_first {i : Nat} (h : i < 16) (r : List Nat) (t : List (List Nat)) : rows16 (r :: t) i = r.getD i 0 := by
  rw [rows16, Nat.div_eq_of_lt h, Nat.mod_eq_of_lt h, List.getD_cons_zero]

theorem rows16_cons_later {i : Nat} (h : 16 ≤ i) (r : List Nat) (t : List (List Nat)) :
    rows16 (r :: t) i = rows16 t (i - 16) := by
  obtain ⟨k, rfl⟩ := Nat.exists_eq_add_of_le' h
  rw [rows16, rows16, Nat.add_div_right k (by decide), Nat.add_mod_right, List.getD_cons_succ, Nat.add_sub_cancel]

theorem rows16_append_left {t : List (List Nat)} {i : Nat} (h : i < 16 * t.length) (u : List (List Nat)) :
    rows16 (t ++ u) i = rows16 t i := by
  rw [rows16_eq, rows16_eq, List.getElem?_append_left (by omega)]

theorem rows16_append_right {t : List (List Nat)} {i : Nat} (h : 16 * t.length ≤ i) (u : List (List Nat)) :
    rows16 (t ++ u) i = rows16 u (i - 16 * t.length) := by
  have row : i / 16 - t.length = (i - 16 * t.length) / 16 := by omega
  have col : i % 16 = (i - 16 * t.length) % 16 := by omega
  rw [rows16_eq, rows16_eq, List.getElem?_append_right (by omega), row, col]

theorem rows16_constRows {n i : Nat} (h : i < 16 * n) (v : Nat) : rows16 (constRows n v) i = v := by
  rw [rows16_eq, constRows, List.getElem?_replicate_of_lt (by omega), Option.getD_some,
    List.getElem?_replicate_of_lt (Nat.mod_lt _ (by decide)), Option.getD_some]

theorem rows16_toRows16 {n i : Nat} (h : i < 16 * n) (f : Nat → Nat) : rows16 (toRows16 n f) i = f i := by
  have row : i / 16 < n := by omega
  have col : i % 16 < 16 := Nat.mod_lt _ (by decide)
  rw [rows16_eq, toRows16, List.getElem?_map, List.getElem?_range row, Option.map_some, Option.getD_some,
    List.getElem?_map, List.getElem?_range col, Option.map_some, Option.getD_some, Nat.div_add_mod]

/-- An entry read from the row it stands in. -/
theorem rows16_of_row {t : List (List Nat)} {i : Nat} {r : List Nat} (h : t[i / 16]? = some r) :
    rows16 t i = r[i % 16]?.getD 0 := by
  rw [rows16_eq, h, Option.getD_some]

/-- A row of a table of full rows. -/
theorem exists_row {t : List (List Nat)} (full : FullRows t) {k : Nat} (h : k < t.length) :
    ∃ r, t[k]? = some r ∧ r.length = 16 :=
  ⟨t[k], List.getElem?_eq_getElem h, full _ (List.getElem_mem h)⟩

theorem rows16_mirrorRows {t : List (List Nat)} (full : FullRows t) {i : Nat} (h : i < 16 * t.length) :
    rows16 (mirrorRows t) i = rows16 t (16 * t.length - 1 - i) := by
  have row : (16 * t.length - 1 - i) / 16 = t.length - 1 - i / 16 := by omega
  have col : (16 * t.length - 1 - i) % 16 = 15 - i % 16 := by omega
  obtain ⟨r, at_row, length⟩ := exists_row full (k := t.length - 1 - i / 16) (by omega)
  have mirrored : (mirrorRows t)[i / 16]? = some r.reverse := by
    rw [mirrorRows, List.getElem?_reverse (by rw [List.length_map]; omega), List.length_map, List.getElem?_map, at_row,
      Option.map_some]
  rw [rows16_of_row mirrored, rows16_of_row (row ▸ at_row), col, List.getElem?_reverse (by omega), length]

theorem rows16_negateRows {t : List (List Nat)} (full : FullRows t) {i : Nat} (h : i < 16 * t.length) :
    rows16 (negateRows t) i = rows16 t i ||| 1 := by
  obtain ⟨r, at_row, length⟩ := exists_row full (k := i / 16) (by omega)
  have negated : (negateRows t)[i / 16]? = some (r.map (· ||| 1)) := by
    rw [negateRows, List.getElem?_map, at_row, Option.map_some]
  have col : i % 16 < r.length := by omega
  rw [rows16_of_row negated, rows16_of_row at_row, List.getElem?_map, List.getElem?_eq_getElem col, Option.map_some,
    Option.getD_some, Option.getD_some]

theorem everySecond_getD (l : List Nat) (i : Nat) : (everySecond l).getD i 0 = l.getD (2 * i) 0 := by
  induction l using everySecond.induct generalizing i with
  | case1 => rfl
  | case2 a => cases i <;> rfl
  | case3 a b l ih =>
    cases i with
    | zero => rfl
    | succ i => exact ih i

theorem everySecond_length (l : List Nat) : (everySecond l).length = (l.length + 1) / 2 := by
  induction l using everySecond.induct with
  | case1 => rfl
  | case2 a => rw [everySecond, List.length_singleton]
  | case3 a b l ih => rw [everySecond, List.length_cons, ih, List.length_cons, List.length_cons]; omega

/-- A table at double speed has the entries at the even places. -/
theorem rows16_doubleRows {t : List (List Nat)} (full : FullRows t) {i : Nat} (h : i < 8 * t.length) :
    rows16 (doubleRows t) i = rows16 t (2 * i) := by
  induction t using doubleRows.induct generalizing i with
  | case1 => exact absurd h (Nat.not_lt_zero i)
  | case2 r =>
    rw [List.length_singleton] at h
    rw [doubleRows, rows16_cons_first (by omega), rows16_cons_first (by omega), everySecond_getD]
  | case3 r r' t ih =>
    have half : (everySecond r).length = 8 := by rw [everySecond_length, full r List.mem_cons_self]
    rw [List.length_cons, List.length_cons] at h
    rw [doubleRows]
    by_cases first : i < 16
    · rw [rows16_cons_first first]
      by_cases low : i < 8
      · rw [rows16_cons_first (by omega), List.getD_eq_getElem?_getD, List.getElem?_append_left (by omega),
          ← List.getD_eq_getElem?_getD, everySecond_getD]
      · rw [rows16_cons_later (by omega), rows16_cons_first (by omega), List.getD_eq_getElem?_getD,
          List.getElem?_append_right (by omega), ← List.getD_eq_getElem?_getD, everySecond_getD, half, Nat.mul_sub]
    · have rest : FullRows t := fun q mem => full q (List.mem_cons_of_mem r (List.mem_cons_of_mem r' mem))
      rw [rows16_cons_later (by omega), rows16_cons_later (by omega), rows16_cons_later (by omega),
        ih rest (by omega), Nat.mul_sub, Nat.sub_sub]

/-! ### The logarithmic sine (40_tables.md R133) -/

theorem fullRows_append {t u : List (List Nat)} (ht : FullRows t) (hu : FullRows u) : FullRows (t ++ u) := fun r mem =>
  (List.mem_append.mp mem).elim (ht r) (hu r)

theorem fullRows_mirrorRows {t : List (List Nat)} (h : FullRows t) : FullRows (mirrorRows t) := fun r mem => by
  obtain ⟨q, member, rfl⟩ := List.mem_map.mp (List.mem_reverse.mp mem)
  rw [List.length_reverse, h q member]

theorem fullRows_negateRows {t : List (List Nat)} (h : FullRows t) : FullRows (negateRows t) := fun r mem => by
  obtain ⟨q, member, rfl⟩ := List.mem_map.mp mem
  rw [List.length_map, h q member]

theorem fullRows_quarter : FullRows logsinQuarterStd := by decide

theorem fullRows_half : FullRows logsinHalfStd := fullRows_append fullRows_quarter (fullRows_mirrorRows fullRows_quarter)

theorem fullRows_logsin : FullRows logsinRowsStd := fullRows_append fullRows_half (fullRows_negateRows fullRows_half)

theorem rows16_half_first {i : Nat} (h : i < 256) : rows16 logsinHalfStd i = rows16 logsinQuarterStd i :=
  rows16_append_left (t := logsinQuarterStd) h _

theorem rows16_half_second {i : Nat} (lo : 256 ≤ i) (hi : i < 512) :
    rows16 logsinHalfStd i = rows16 logsinQuarterStd (511 - i) := by
  have mirror := rows16_mirrorRows fullRows_quarter (i := i - 256) (by change i - 256 < 256; omega)
  have place : 16 * logsinQuarterStd.length - 1 - (i - 256) = 511 - i := by change 256 - 1 - (i - 256) = 511 - i; omega
  rw [place] at mirror
  exact (rows16_append_right (t := logsinQuarterStd) lo _).trans mirror

theorem rows16_logsin_first {i : Nat} (h : i < 512) : rows16 logsinRowsStd i = rows16 logsinHalfStd i :=
  rows16_append_left (t := logsinHalfStd) h _

theorem rows16_logsin_second {i : Nat} (lo : 512 ≤ i) (hi : i < 1024) :
    rows16 logsinRowsStd i = rows16 logsinHalfStd (i - 512) ||| 1 :=
  (rows16_append_right (t := logsinHalfStd) lo _).trans
    (rows16_negateRows fullRows_half (by change i - 512 < 512; omega))

/-! ### The waveforms (40_tables.md R134 to R141) -/

theorem tlLen_eq (x : Variant) : tlLen x = (match x with | .v1 => 6144 | .v2 => 6656) := by cases x <;> rfl

theorem four_le_nwave (x : Variant) : 4 ≤ nwave x := by cases x <;> decide

theorem logsin_std {cfg : Config} (h : cfg.tables = stdTables cfg.variant) : logsin cfg = rows16 logsinRowsStd := by
  unfold logsin
  rw [h]
  rfl

/-- The waveforms a variant has are those made of the logarithmic sine. -/
theorem waveTab_std {cfg : Config} (h : cfg.tables = stdTables cfg.variant) {w : BitVec 3} (hw : w.toNat < nwave cfg.variant)
    (i : Nat) : waveTab cfg w i = rows16 ((waveRowsOf (tlLen cfg.variant)).getD w.toNat []) i := by
  rw [waveTab, h, stdTables, waveRowsStd, List.getD_eq_getElem?_getD, List.getElem?_take_of_lt hw,
    ← List.getD_eq_getElem?_getD]

theorem testBit_nine {i : Nat} (h : i < 1024) : i.testBit 9 = decide (512 ≤ i) := by
  rw [Nat.testBit_eq_decide_div_mod_eq, decide_eq_decide]
  omega

theorem testBit_eight (i : Nat) : i.testBit 8 = decide (256 ≤ i % 512) := by
  rw [Nat.testBit_eq_decide_div_mod_eq, decide_eq_decide]
  omega

/-- A first half of 512 entries, then one value. -/
theorem rows16_append_constRows {t : List (List Nat)} (length : t.length = 32) (v : Nat) {i x : Nat} (h : i < 1024)
    (first : i < 512 → rows16 t i = x) : rows16 (t ++ constRows 32 v) i = if i.testBit 9 then v else x := by
  rw [testBit_nine h]
  by_cases second : 512 ≤ i
  · rw [rows16_append_right (by omega), rows16_constRows (by omega), decide_eq_true second, if_pos rfl]
  · rw [rows16_append_left (by omega), first (by omega), decide_eq_false second, if_neg Bool.false_ne_true]

/-- A table of `n` entries and its repetition. -/
theorem rows16_append_self {t : List (List Nat)} {n : Nat} (length : 16 * t.length = n) {i : Nat} (h : i < 2 * n) :
    rows16 (t ++ t) i = rows16 t (i % n) := by
  by_cases second : n ≤ i
  · rw [rows16_append_right (by omega), length, Nat.mod_eq_sub_mod second, Nat.mod_eq_of_lt (by omega)]
  · rw [rows16_append_left (by omega), Nat.mod_eq_of_lt (by omega)]

section
variable (mute : Nat) {i : Nat} (h : i < 1024)
include h

/-- 40_tables.md R135. -/
theorem wave1_eq : rows16 (logsinHalfStd ++ constRows 32 mute) i = if i.testBit 9 then mute else rows16 logsinRowsStd i :=
  rows16_append_constRows rfl mute h fun first => (rows16_logsin_first first).symm

/-- 40_tables.md R136. -/
theorem wave2_eq : rows16 (logsinHalfStd ++ logsinHalfStd) i = rows16 logsinRowsStd (i &&& 511) := by
  have place : i &&& 511 = i % 512 := Nat.and_two_pow_sub_one_eq_mod i 9
  rw [place, rows16_append_self (n := 512) rfl h, rows16_logsin_first (by omega)]

/-- 40_tables.md R137. -/
theorem wave3_eq :
    rows16 (logsinQuarterStd ++ constRows 16 mute ++ logsinQuarterStd ++ constRows 16 mute) i =
      if i.testBit 8 then mute else rows16 logsinRowsStd (i &&& 255) := by
  have place : i &&& 255 = i % 256 := Nat.and_two_pow_sub_one_eq_mod i 8
  rw [List.append_assoc, rows16_append_self (n := 512) rfl h, testBit_eight, place]
  by_cases second : 256 ≤ i % 512
  · have muted := rows16_constRows (n := 16) (i := i % 512 - 256) (by omega) mute
    rw [decide_eq_true second, if_pos rfl]
    exact (rows16_append_right (t := logsinQuarterStd) second _).trans muted
  · have same : i % 256 = i % 512 := by omega
    rw [decide_eq_false second, if_neg Bool.false_ne_true, rows16_logsin_first (by omega), rows16_half_first (by omega),
      same]
    exact rows16_append_left (t := logsinQuarterStd) (Nat.not_le.mp second) _

/-- 40_tables.md R138. -/
theorem wave4_eq :
    rows16 (doubleRows logsinRowsStd ++ constRows 32 mute) i =
      if i.testBit 9 then mute else rows16 logsinRowsStd (2 * i) :=
  rows16_append_constRows rfl mute h fun first => rows16_doubleRows fullRows_logsin first

/-- 40_tables.md R139. -/
theorem wave5_eq :
    rows16 (doubleRows logsinHalfStd ++ doubleRows logsinHalfStd ++ constRows 32 mute) i =
      if i.testBit 9 then mute else rows16 logsinRowsStd (2 * i &&& 511) := by
  refine rows16_append_constRows rfl mute h fun first => ?_
  have place : 2 * i &&& 511 = 2 * (i % 256) := (Nat.and_two_pow_sub_one_eq_mod (2 * i) 9).trans (by omega)
  rw [place, rows16_append_self (n := 256) rfl first, rows16_logsin_first (by omega)]
  exact rows16_doubleRows fullRows_half (Nat.mod_lt i (by decide))

/-- 40_tables.md R140. -/
theorem wave6_eq : rows16 (constRows 32 0 ++ constRows 32 1) i = if i.testBit 9 then 1 else 0 :=
  rows16_append_constRows rfl 1 h fun first => rows16_constRows first 0

/-- 40_tables.md R141. -/
theorem wave7_eq :
    rows16 (toRows16 64 fun i => min (if 512 ≤ i then (1023 - i) * 16 + 1 else i * 16) mute) i =
      min (if i.testBit 9 then (1023 - i) * 16 + 1 else i * 16) mute := by
  rw [rows16_toRows16 h, testBit_nine h]
  simp only [decide_eq_true_eq]

end

end Sys2Proof.Machine
end

section
/-! SUPPORT. The output of one operator as arithmetic (43_operator_output.md R212 to R216, R218). -/

namespace Sys2Proof.Machine

/-! ### The exponential converter -/

theorem expOut_of_le {cfg : Config} {p : Nat} (h : tlLen cfg.variant ≤ p) : expOut cfg p = 0 := if_pos h

theorem expOut_of_lt {cfg : Config} {p : Nat} (h : p < tlLen cfg.variant) :
    expOut cfg p = if p % 2 = 1 then -((expTab cfg (p / 2 % 256) / 2 ^ (p / 512) : Nat) : Int)
      else ((expTab cfg (p / 2 % 256) / 2 ^ (p / 512) : Nat) : Int) := by
  unfold expOut
  rw [if_neg (Nat.not_le.mpr h), Nat.shiftRight_eq_div_pow, Nat.shiftRight_eq_div_pow]

/-- Bit 0 of the argument is the sign of the result: an argument and its successor are both outside the table or look up
the same entry. -/
theorem expOut_two_mul_add_one (cfg : Config) (k : Nat) : expOut cfg (2 * k + 1) = -expOut cfg (2 * k) := by
  have even : tlLen cfg.variant = 2 * (expRows cfg.variant * 256) := by unfold tlLen; omega
  by_cases outside : tlLen cfg.variant ≤ 2 * k
  · rw [expOut_of_le outside, expOut_of_le (by omega)]
    rfl
  · have entry : (2 * k + 1) / 2 = 2 * k / 2 := by omega
    have halvings : (2 * k + 1) / 512 = 2 * k / 512 := by omega
    rw [expOut_of_lt (by omega), expOut_of_lt (by omega), if_pos (by omega), if_neg (by omega), entry, halvings]

/-! ### Operators -/

theorem opOut_eq (cfg : Config) (p : Op) (x : Int) (e : Nat) :
    opOut cfg p x e = expOut cfg (e * 16 + waveTab cfg p.wave (x % 1024).toNat) := by
  rw [opOut, Nat.shiftLeft_eq]

/-- `TL_LEN` is 16 times the quiet threshold. -/
theorem tlLen_eq_envQuiet (x : Variant) : tlLen x = envQuiet x * 16 := by cases x <;> rfl

theorem opOut_of_quiet {cfg : Config} {e : Nat} (h : envQuiet cfg.variant ≤ e) (p : Op) (x : Int) :
    opOut cfg p x e = 0 := by
  rw [opOut_eq, expOut_of_le]
  have := tlLen_eq_envQuiet cfg.variant
  omega

theorem opAt_eq (s : State) (o : OpRef) (x : Int) :
    opAt s o x = if env s o < envQuiet s.cfg.variant then opOut s.cfg (s.op o) x (env s o) else 0 := by
  simp only [opAt, audible, decide_eq_true_eq]

/-- The skip at the quiet threshold cannot be observed (43_operator_output.md R214). -/
theorem opAt_eq_opOut (s : State) (o : OpRef) (x : Int) : opAt s o x = opOut s.cfg (s.op o) x (env s o) := by
  rw [opAt_eq]
  split
  · rfl
  · next quiet => exact (opOut_of_quiet (Nat.not_lt.mp quiet) _ _).symm

theorem index_eq (p : Op) : (p.index : Int) = (p.cnt.toNat : Int) / 65536 := by
  rw [Op.index, Nat.shiftRight_eq_div_pow, Int.natCast_ediv]
  rfl

/-! ### The feedback modulation -/

theorem fbMod_eq_div (s : State) (c : Chan) (sum : Int) :
    fbMod s c sum = if (s.chan c).fb = 0 then 0 else sum * 2 ^ ((s.chan c).fb.toNat + 7) / 65536 := by
  unfold fbMod fbShift asr
  rw [Int.shiftRight_eq_div_pow]
  split
  · rfl
  · rfl

/-- The two shifts of R215 together divide by `2 ^ (9 - FB)`, rounding down. -/
theorem fbMod_eq_fdiv {s : State} {c : Chan} (h : (s.chan c).fb ≠ 0) (sum : Int) :
    fbMod s c sum = Int.fdiv sum (2 ^ (9 - (s.chan c).fb.toNat)) := by
  have width : (2 : Int) ^ 16 = 2 ^ (9 - (s.chan c).fb.toNat) * 2 ^ ((s.chan c).fb.toNat + 7) := by
    have := (s.chan c).fb.isLt
    rw [← Int.pow_add]
    congr 1
    omega
  calc fbMod s c sum
      = sum * 2 ^ ((s.chan c).fb.toNat + 7) / 2 ^ 16 := by rw [fbMod_eq_div, if_neg h]; rfl
    _ = sum / 2 ^ (9 - (s.chan c).fb.toNat) := by rw [width, Int.mul_ediv_mul_of_pos_left _ _ (Int.pow_pos (by decide))]
    _ = Int.fdiv sum (2 ^ (9 - (s.chan c).fb.toNat)) :=
      (Int.fdiv_eq_ediv_of_nonneg _ (Int.le_of_lt (Int.pow_pos (by decide)))).symm

end Sys2Proof.Machine
end

section
/-! SUPPORT. The feedback history of Slot 1 under the eight steps of a tick (43_operator_output.md R215, R217): step 3 shifts
it where the role of the channel uses Slot 1 with feedback, and no other step touches it. -/

namespace Sys2Proof.Machine

/-- The feedback history of a channel, the older value first. -/
def fbCells (s : State) (c : Chan) : BitVec 14 × BitVec 14 := ((s.op ⟨c, .one⟩).fb0, (s.op ⟨c, .one⟩).fb1)

/-- The output of Slot 1 with the feedback modulation of its history. -/
def slot1Out (s : State) (c : Chan) : Int :=
  opAt s ⟨c, .one⟩ ((s.op ⟨c, .one⟩).index + fbMod s c ((fbCells s c).1.toInt + (fbCells s c).2.toInt))

/-- The history after a tick that uses Slot 1 of the channel. -/
def shiftedCells (s : State) (c : Chan) : BitVec 14 × BitVec 14 := ((fbCells s c).2, BitVec.ofInt 14 (slot1Out s c))

/-- The role of the channel computes its Slot 1 with feedback. -/
abbrev UsesFeedback (s : State) (c : Chan) : Prop :=
  role s c = .twoOp ∨ role s c = .master ∨ (role s c = .rhythm ∧ c = 6)

/-- The history after a tick. -/
def nextCells (s : State) (c : Chan) : BitVec 14 × BitVec 14 :=
  if UsesFeedback s c then shiftedCells s c else fbCells s c

/-- What the next history is made of is in the frame of the other channels' contributions. -/
theorem nextCells_congr {s t : State} (h : BusFrame s t) {c : Chan} (cells : fbCells t c = fbCells s c) :
    nextCells t c = nextCells s c := by
  have modulation : ∀ sum, fbMod t c sum = fbMod s c sum := fun sum => by rw [fbMod_eq_div, fbMod_eq_div, h.fb]
  have out : slot1Out t c = slot1Out s c := by
    unfold slot1Out
    rw [h.opAt, h.index, cells, modulation]
  have uses : UsesFeedback t c ↔ UsesFeedback s c := by rw [UsesFeedback, h.role]
  unfold nextCells
  by_cases used : UsesFeedback s c
  · rw [if_pos (uses.mpr used), if_pos used, shiftedCells, cells, out, shiftedCells]
  · rw [if_neg (mt uses.mp used), if_neg used, cells]

/-! ### Step 3 -/

theorem fbCells_addOut (s : State) (d : Chan) (x : Int) (c : Chan) : fbCells (addOut s d x) c = fbCells s c := by
  have kept : ∀ o, (addOut s d x).op o = s.op o := updChan_op fun ch sl => by cases sl <;> rfl
  unfold fbCells
  rw [kept]

theorem slot1_state (s : State) (c : Chan) :
    (slot1 s c).1 = s.updOp ⟨c, .one⟩ fun q => { q with fb0 := (shiftedCells s c).1, fb1 := (shiftedCells s c).2 } := by
  unfold slot1 shiftedCells slot1Out opAt
  dsimp only
  split <;> rfl

theorem fbCells_slot1 {s : State} {d : Chan} (has : s.hasChan d = true) (c : Chan) :
    fbCells (slot1 s d).1 c = if c = d then shiftedCells s c else fbCells s c := by
  rw [slot1_state, fbCells, updOp_op]
  by_cases e : c = d
  · subst e
    rw [if_pos ⟨rfl, has⟩, if_pos rfl]
  · rw [if_neg fun h => e (congrArg OpRef.ch h.1), if_neg e, fbCells]

theorem fbCells_chan2Op (s : State) (d c : Chan) : fbCells (chan2Op s d) c = fbCells (slot1 s d).1 c := by
  unfold chan2Op
  dsimp only
  split <;> simp only [fbCells_addOut]

theorem fbCells_chan4Op (s : State) (d c : Chan) : fbCells (chan4Op s d) c = fbCells (slot1 s d).1 c := by
  unfold chan4Op
  dsimp only
  split <;> simp only [topology0, topology1, topology2, topology3, fbCells_addOut]

theorem fbCells_rhythmStep (s : State) (c : Chan) : fbCells (rhythmStep s) c = fbCells (slot1 s 6).1 c := by
  simp only [rhythmStep, topCymbal, tomTom, snareDrum, highHat, bassDrum, fbCells_addOut]

/-- Of all that a contribution does only Slot 1 with feedback touches a history. -/
theorem fbCells_chanStep_eq_slot1 {s : State} {d : Chan} (uses : UsesFeedback s d) (c : Chan) :
    fbCells (chanStep s d) c = fbCells (slot1 s d).1 c := by
  unfold chanStep
  rcases uses with r | r | ⟨r, rfl⟩
  · rw [r]; exact fbCells_chan2Op s d c
  · rw [r]; exact fbCells_chan4Op s d c
  · rw [r]; exact fbCells_rhythmStep s c

theorem chanStep_of_not_usesFeedback {s : State} {d : Chan} (unused : ¬UsesFeedback s d) : chanStep s d = s := by
  unfold chanStep
  split
  · next r => exact if_neg fun six => unused (.inr (.inr ⟨r, six⟩))
  · next r => exact absurd (.inr (.inl r)) unused
  · rfl
  · next r => exact absurd (.inl r) unused

/-- A contribution moves the history of its own channel on, and no other. -/
theorem fbCells_chanStep {s : State} {d : Chan} (has : s.hasChan d = true) (c : Chan) :
    fbCells (chanStep s d) c = if c = d then nextCells s c else fbCells s c := by
  by_cases uses : UsesFeedback s d
  · rw [fbCells_chanStep_eq_slot1 uses, fbCells_slot1 has]
    by_cases own : c = d
    · subst own
      rw [if_pos rfl, if_pos rfl, nextCells, if_pos uses]
    · rw [if_neg own, if_neg own]
  · rw [chanStep_of_not_usesFeedback uses]
    split
    · next e => rw [nextCells, if_neg (e ▸ uses)]
    · rfl

theorem fbCells_foldl_of_not_mem {l : List Chan} {c : Chan} (fresh : c ∉ l) {s : State}
    (has : ∀ d ∈ l, s.hasChan d = true) : fbCells (l.foldl chanStep s) c = fbCells s c := by
  induction l generalizing s with
  | nil => rfl
  | cons d l ih =>
    obtain ⟨ne, fresh⟩ := not_or.mp (mt List.mem_cons.mpr fresh)
    have frame := BusFrame.chanStep s d
    rw [List.foldl_cons, ih fresh fun e mem => (frame.hasChan e).trans (has e (List.mem_cons_of_mem d mem)),
      fbCells_chanStep (has d List.mem_cons_self), if_neg ne]

/-- Contributions of distinct channels move each history on once. -/
theorem fbCells_foldl_of_mem {l : List Chan} (distinct : l.Nodup) {c : Chan} (mem : c ∈ l) {s : State}
    (has : ∀ d ∈ l, s.hasChan d = true) : fbCells (l.foldl chanStep s) c = nextCells s c := by
  induction l generalizing s with
  | nil => cases mem
  | cons d l ih =>
    obtain ⟨fresh, distinct⟩ := List.nodup_cons.mp distinct
    have frame := BusFrame.chanStep s d
    have here := fbCells_chanStep (has d List.mem_cons_self) c
    have later : ∀ e ∈ l, (chanStep s d).hasChan e = true := fun e mem =>
      (frame.hasChan e).trans (has e (List.mem_cons_of_mem d mem))
    rw [List.foldl_cons]
    by_cases own : c = d
    · subst own
      rw [fbCells_foldl_of_not_mem fresh later, here, if_pos rfl]
    · rw [if_neg own] at here
      rw [ih distinct ((List.mem_cons.mp mem).resolve_left own) later, nextCells_congr frame here]

theorem mem_chanList {s : State} {c : Chan} : c ∈ s.chanList ↔ s.hasChan c = true := by
  have all : ∀ c, c ∈ allChans := by decide
  rw [State.chanList, List.mem_filter, and_iff_right (all c)]

theorem fbCells_channelsStep {s : State} {c : Chan} (has : s.hasChan c = true) :
    fbCells (channelsStep s) c = nextCells s c :=
  fbCells_foldl_of_mem (chanList_nodup s) (mem_chanList.mpr has) fun _ => mem_chanList.mp

/-! ### The other steps -/

theorem fbCells_mapChans (s : State) {f : Chan → Channel → Channel} {c : Chan}
    (older : (f c (s.chan c)).slot1.fb0 = (s.chan c).slot1.fb0) (newer : (f c (s.chan c)).slot1.fb1 = (s.chan c).slot1.fb1) :
    fbCells (s.mapChans f) c = fbCells s c := by
  unfold fbCells State.op
  rw [mapChans_chan]
  split
  · exact Prod.ext older newer
  · rfl

theorem fbCells_clearOut (s : State) (c : Chan) : fbCells (clearOut s) c = fbCells s c := fbCells_mapChans s rfl rfl

theorem fbCells_mixStep (s : State) (c : Chan) : fbCells (mixStep s) c = fbCells s c := by rw [mixStep_frame]; rfl

theorem fbCells_peakStep (s : State) (c : Chan) : fbCells (peakStep s) c = fbCells s c := fbCells_mapChans s rfl rfl

theorem fbCells_egTick (s : State) (c : Chan) : fbCells (egTick s) c = fbCells s c := by
  unfold fbCells
  rw [egTick_op]
  split
  · rw [egStep_frame]; rfl
  · rfl

theorem fbCells_egAdvance (s : State) (c : Chan) : fbCells (egAdvance s) c = fbCells s c :=
  repeat_keeps (P := fun t => fbCells t c = fbCells s c) (fun t h => (fbCells_egTick t c).trans h) _ rfl

theorem fbCells_phaseAdvance (s : State) (c : Chan) : fbCells (phaseAdvance s) c = fbCells s c :=
  fbCells_mapChans s rfl rfl

theorem fbCells_advanceSteps (s : State) (c : Chan) : fbCells (advanceSteps s) c = fbCells s c := by
  have noise : ∀ t, fbCells (noiseAdvance t) c = fbCells t c := fun _ => rfl
  rw [advanceSteps, noise, fbCells_phaseAdvance, fbCells_egAdvance, fbCells_peakStep]

/-- A tick moves every history on once, with the output at this tick's tremolo value. -/
theorem fbCells_tickSteps {s : State} {c : Chan} (has : s.hasChan c = true) :
    fbCells (tickSteps s) c = nextCells (lfoAdvance s) c := by
  have frame := BusFrame.clearOut (lfoAdvance s)
  rw [tickSteps, fbCells_advanceSteps, sampleSteps, fbCells_mixStep,
    fbCells_channelsStep ((frame.hasChan c).trans has), nextCells_congr frame (fbCells_clearOut _ c)]

/-- The output of Slot 1 fits its cell. -/
theorem shiftedCells_toInt {s : State} (h : boundedConfig s.cfg = true) (c : Chan) :
    (shiftedCells s c).2.toInt = slot1Out s c := by
  have bound : (slot1Out s c).natAbs ≤ 4084 := opAt_natAbs_le h _ _
  rw [shiftedCells, BitVec.toInt_ofInt, Int.bmod_eq_of_le (by omega) (by omega)]

theorem slot1Out_eq (s : State) (c : Chan) :
    slot1Out s c =
      if env s ⟨c, .one⟩ < envQuiet s.cfg.variant then
        opOut s.cfg (s.op ⟨c, .one⟩) ((s.op ⟨c, .one⟩).cnt.toNat / 65536 +
          if (s.chan c).fb = 0 then 0
          else ((s.op ⟨c, .one⟩).fb0.toInt + (s.op ⟨c, .one⟩).fb1.toInt) * 2 ^ ((s.chan c).fb.toNat + 7) / 65536)
          (env s ⟨c, .one⟩)
      else 0 := by
  rw [slot1Out, opAt_eq, index_eq, fbMod_eq_div]
  rfl

end Sys2Proof.Machine
end

section
/-! The statements about the output of operators. -/

namespace Sys2Proof.Machine

/-- Settles O43: an argument below `TL_LEN` looks up the shifted entry, and its successor the same one. -/
theorem exponentialConverterIsSignedAndBounded : Obligations.ExponentialConverterIsSignedAndBounded := by
  intro cfg p bounded
  refine ⟨expOut_of_le, fun inside => ?_, expOut_natAbs_le bounded p, expOut_two_mul_add_one cfg (p / 2)⟩
  rw [expOut_of_lt inside]
  constructor
  · split
    · exact (Int.natAbs_neg _).trans (Int.natAbs_natCast _)
    · exact Int.natAbs_natCast _
  · intro even
    rw [if_neg (by omega)]
    exact Int.natCast_nonneg _

/-- Settles O44: every waveform entry is added to sixteen times the attenuation, which alone reaches `TL_LEN`. -/
theorem quietOperatorsOutputZero : Obligations.QuietOperatorsOutputZero := by
  refine ⟨fun cfg p x e quiet => opOut_of_quiet quiet p x, fun s o pm quiet => ?_⟩
  rw [slotN, opAt_eq_opOut, opOut_of_quiet quiet]

/-- Settles O45: the two shifts together divide by the positive power of two that is left. -/
theorem feedbackRoundsTowardMinusInfinity : Obligations.FeedbackRoundsTowardMinusInfinity := fun s c sum =>
  ⟨fun off => by rw [fbMod_eq_div, if_pos off], fun on => fbMod_eq_fdiv on sum⟩

/-- Settles O46: only step 3 moves a history, once for each channel, and the output fits the cell. -/
theorem tickShiftsTheFeedbackHistory : Obligations.TickShiftsTheFeedbackHistory := by
  intro s c live bounded has
  dsimp only
  refine ⟨tickSteps s.begin, exec_live live nofun, ?_⟩
  have cells : fbCells (tickSteps s.begin) c = nextCells (lfoAdvance s.begin) c := fbCells_tickSteps has
  split
  · next uses =>
    have fits := shiftedCells_toInt (s := lfoAdvance s.begin) bounded c
    obtain ⟨older, newer⟩ := Prod.mk.inj (cells.trans (if_pos uses))
    refine ⟨older, ?_⟩
    rw [newer]
    exact fits.trans (slot1Out_eq (lfoAdvance s.begin) c)
  · next unused => exact Prod.mk.inj (cells.trans (if_neg unused))

/-- Settles O60: the wave tables part by part, as rows of the logarithmic sine appended, mirrored, negated
and read at double speed. -/
theorem operatorOutputIsTheConvertedWaveform : Obligations.OperatorOutputIsTheConvertedWaveform := by
  refine ⟨fun cfg p x e => ⟨opOut_eq cfg p x e, ?_, fun bounded => expOut_natAbs_le bounded _⟩, fun s o pm => ?_, ?_⟩
  · rw [opOut_eq, opOut_eq, Int.add_emod_right]
  · rw [slotN, opAt_eq, index_eq]
    cases s.cfg.variant <;> rfl
  · intro cfg i std hi mute sine
    have mute_eq : mute = tlLen cfg.variant := (tlLen_eq cfg.variant).symm
    have sine_eq : sine = rows16 logsinRowsStd := logsin_std std
    have wave (w : BitVec 3) (has : w.toNat < nwave cfg.variant) := waveTab_std std has i
    have early {w : Nat} (h : w < 4) : w < nwave cfg.variant := Nat.lt_of_lt_of_le h (four_le_nwave _)
    clear_value mute sine
    subst mute_eq sine_eq
    refine ⟨fun h => ?_, fun lo h => ?_, fun h => ?_, wave 0 (early (by decide)),
      (wave 1 (early (by decide))).trans (wave1_eq _ hi), (wave 2 (early (by decide))).trans (wave2_eq hi),
      (wave 3 (early (by decide))).trans (wave3_eq _ hi), fun v2 => ?_⟩
    · rw [rows16_logsin_first (by omega), rows16_half_first h]
    · rw [rows16_logsin_first (by omega), rows16_half_second lo (by omega), rows16_logsin_first (by omega),
        rows16_half_first (by omega)]
    · rw [rows16_logsin_second h hi, rows16_logsin_first (by omega)]
    · have every (w : BitVec 3) : w.toNat < nwave cfg.variant := by rw [v2]; exact w.isLt
      exact ⟨(wave 4 (every 4)).trans (wave4_eq _ hi), (wave 5 (every 5)).trans (wave5_eq _ hi),
        (wave 6 (every 6)).trans (wave6_eq hi), (wave 7 (every 7)).trans (wave7_eq _ hi)⟩

end Sys2Proof.Machine
end

section
/-! SUPPORT. The buses under step 3 of a tick (44_channel_router.md R232, R234 to R238): what the contribution of a role adds
to the buses it writes, and the state in which a channel's turn comes, where its buses and its feedback history are still
as they were before step 3. -/

namespace Sys2Proof.Machine

/-! ### One addition to a bus -/

/-- The bus value of a channel. -/
def bus (s : State) (c : Chan) : BitVec 32 := (s.chan c).chanout

theorem bus_addOut_same {s : State} {c : Chan} (has : s.hasChan c = true) (x : Int) :
    bus (addOut s c x) c = bus s c + BitVec.ofInt 32 x := by
  unfold bus addOut
  rw [updChan_chan, if_pos ⟨rfl, has⟩]

theorem bus_addOut_ne {c d : Chan} (ne : c ≠ d) (s : State) (x : Int) : bus (addOut s d x) c = bus s c := by
  unfold bus addOut
  rw [updChan_chan, if_neg fun h => ne h.1]

/-- Two additions to a bus are one addition of the sum. -/
theorem bus_addOut_twice {s : State} {c : Chan} (has : s.hasChan c = true) (x y : Int) :
    bus (addOut (addOut s c x) c y) c = bus s c + BitVec.ofInt 32 (x + y) := by
  have still : (addOut s c x).hasChan c = true := ((BusFrame.addOut s c x).hasChan c).trans has
  rw [bus_addOut_same still, bus_addOut_same has, BitVec.ofInt_add, BitVec.add_assoc]

/-- Slot 1 with feedback hands on the output it appends to its history, and the one before. -/
theorem slot1_eq (s : State) (c : Chan) :
    slot1 s c = ((slot1 s c).1, (shiftedCells s c).2.toInt, (fbCells s c).2.toInt) := by
  unfold slot1 shiftedCells slot1Out opAt
  dsimp only
  split <;> rfl

theorem bus_slot1 (s : State) (d c : Chan) : bus (slot1 s d).1 c = bus s c := by
  rw [slot1_state, bus, updOp_chan]
  split
  · next e => rw [setOp_chanout, e.1]; rfl
  · rfl

/-! ### Two-operator channels -/

/-- What a two-operator channel adds to its bus when Slot 1 hands on `s1` (44_channel_router.md R232). -/
def pairSum (s : State) (c : Chan) (s1 : Int) : Int :=
  if (s.chan c).con then s1 + slotN s ⟨c, .two⟩ 0 else slotN s ⟨c, .two⟩ s1

theorem pairSum_congr {s t : State} (h : BusFrame s t) (c : Chan) (s1 : Int) : pairSum t c s1 = pairSum s c s1 := by
  unfold pairSum
  rw [h.con, h.slotN, h.slotN]

theorem bus_chan2Op_same {s : State} {c : Chan} (has : s.hasChan c = true) :
    bus (chan2Op s c) c = bus s c + BitVec.ofInt 32
      (pairSum s c (if s.cfg.slot1Delayed then (fbCells s c).2.toInt else (shiftedCells s c).2.toInt)) := by
  have frame := BusFrame.slot1 s c
  have still : (slot1 s c).1.hasChan c = true := (frame.hasChan c).trans has
  unfold chan2Op pairSum
  rw [slot1_eq]
  dsimp only
  rw [frame.slotN, frame.slotN]
  split
  · rw [bus_addOut_twice still, bus_slot1]
  · rw [bus_addOut_same still, bus_slot1]

theorem bus_chan2Op_ne {c d : Chan} (ne : c ≠ d) (s : State) : bus (chan2Op s d) c = bus s c := by
  unfold chan2Op
  dsimp only
  split
  · rw [bus_addOut_ne ne, bus_addOut_ne ne, bus_slot1]
  · rw [bus_addOut_ne ne, bus_slot1]

/-! ### Four-operator voices -/

/-- What a voice adds to the bus of its master and to that of its slave, by the two connection bits, when operator 1 hands
on `s1` (44_channel_router.md R235 to R238). -/
def voiceSums (s : State) (m n : Chan) (s1 : Int) : Int × Int :=
  match (s.chan m).con, (s.chan n).con with
  | false, false => (0, slotN s ⟨n, .two⟩ (slotN s ⟨n, .one⟩ (slotN s ⟨m, .two⟩ s1)))
  | false, true => (slotN s ⟨m, .two⟩ s1, slotN s ⟨n, .two⟩ (slotN s ⟨n, .one⟩ 0))
  | true, false => (s1, slotN s ⟨n, .two⟩ (slotN s ⟨n, .one⟩ (slotN s ⟨m, .two⟩ 0)))
  | true, true => (s1, slotN s ⟨n, .one⟩ (slotN s ⟨m, .two⟩ 0) + slotN s ⟨n, .two⟩ 0)

theorem voiceSums_congr {s t : State} (h : BusFrame s t) (m n : Chan) (s1 : Int) :
    voiceSums t m n s1 = voiceSums s m n s1 := by
  simp only [voiceSums, h.con, h.slotN]

/-- The slave's bus is written last, after operator 1 and the master's bus. -/
theorem bus_chan4Op_slave {s : State} {m : Chan} (has : s.hasChan (pairHigh m) = true) :
    bus (chan4Op s m) (pairHigh m) =
      bus s (pairHigh m) + BitVec.ofInt 32 (voiceSums s m (pairHigh m) (shiftedCells s m).2.toInt).2 := by
  have frame := BusFrame.slot1 s m
  have still : (slot1 s m).1.hasChan (pairHigh m) = true := (frame.hasChan _).trans has
  have after : ∀ x, (addOut (slot1 s m).1 m x).hasChan (pairHigh m) = true := fun x =>
    ((BusFrame.addOut _ m x).hasChan _).trans still
  have apart : ∀ x, bus (addOut (slot1 s m).1 m x) (pairHigh m) = bus s (pairHigh m) := fun x => by
    rw [bus_addOut_ne (ne_pairHigh m).symm, bus_slot1]
  unfold chan4Op voiceSums
  rw [slot1_eq]
  dsimp only
  generalize (s.chan m).con = a, (s.chan (pairHigh m)).con = b
  match a, b with
  | false, false =>
    dsimp only [topology0]
    rw [bus_addOut_same still, bus_slot1, frame.slotN, frame.slotN, frame.slotN]
  | false, true =>
    dsimp only [topology1]
    rw [bus_addOut_same (after _), apart, frame.slotN, frame.slotN]
  | true, false =>
    dsimp only [topology2]
    rw [bus_addOut_same (after _), apart, frame.slotN, frame.slotN, frame.slotN]
  | true, true =>
    dsimp only [topology3]
    rw [bus_addOut_twice (after _), apart, frame.slotN, frame.slotN, frame.slotN]

theorem bus_chan4Op_master {s : State} {m : Chan} (has : s.hasChan m = true) :
    bus (chan4Op s m) m =
      bus s m + BitVec.ofInt 32 (voiceSums s m (pairHigh m) (shiftedCells s m).2.toInt).1 := by
  have frame := BusFrame.slot1 s m
  have still : (slot1 s m).1.hasChan m = true := (frame.hasChan m).trans has
  have apart := bus_addOut_ne (ne_pairHigh m)
  unfold chan4Op voiceSums
  rw [slot1_eq]
  dsimp only
  generalize (s.chan m).con = a, (s.chan (pairHigh m)).con = b
  match a, b with
  | false, false =>
    dsimp only [topology0]
    rw [apart, bus_slot1]
    exact (BitVec.add_zero _).symm
  | false, true =>
    dsimp only [topology1]
    rw [apart, bus_addOut_same still, bus_slot1, frame.slotN]
  | true, false =>
    dsimp only [topology2]
    rw [apart, bus_addOut_same still, bus_slot1]
  | true, true =>
    dsimp only [topology3]
    rw [apart, apart, bus_addOut_same still, bus_slot1]

theorem bus_chan4Op_ne {c m : Chan} (master : c ≠ m) (slave : c ≠ pairHigh m) (s : State) :
    bus (chan4Op s m) c = bus s c := by
  unfold chan4Op
  dsimp only
  split
  · rw [topology0, bus_addOut_ne slave, bus_slot1]
  · rw [topology1, bus_addOut_ne slave, bus_addOut_ne master, bus_slot1]
  · rw [topology2, bus_addOut_ne slave, bus_addOut_ne master, bus_slot1]
  · rw [topology3, bus_addOut_ne slave, bus_addOut_ne slave, bus_addOut_ne master, bus_slot1]

/-! ### Every role -/

theorem bus_rhythmStep_ne {c : Chan} (six : c ≠ 6) (seven : c ≠ 7) (eight : c ≠ 8) (s : State) :
    bus (rhythmStep s) c = bus s c := by
  rw [rhythmStep, topCymbal, bus_addOut_ne eight, tomTom, bus_addOut_ne eight, snareDrum, bus_addOut_ne seven,
    highHat, bus_addOut_ne seven]
  exact (bus_addOut_ne six _ _).trans (bus_slot1 s 6 c)

/-- A contribution leaves every bus that another channel writes. -/
theorem bus_chanStep_of_not_writer {s : State} {c d : Chan} (other : busWriter s c ≠ d) :
    bus (chanStep s d) c = bus s c := by
  unfold chanStep
  split
  · next r =>
    split
    · next six =>
      obtain ⟨rhy, -, -⟩ := (role_rhythm_iff s d).mp r
      have outside : ∀ e : Chan, 6 ≤ e.val ∧ e.val ≤ 8 → c ≠ e := fun e range same =>
        other ((busWriter_rhythm ⟨rhy, same ▸ range⟩).trans six.symm)
      exact bus_rhythmStep_ne (outside 6 (by decide)) (outside 7 (by decide)) (outside 8 (by decide)) s
    · rfl
  · next r =>
    have master := (role_master_iff s d).mp r
    refine bus_chan4Op_ne (fun e => other ?_) (fun e => other ?_) s
    · rw [e, busWriter_master master]
    · rw [e, busWriter_slave master (pairHigh_val (isMaster_pairLow master))]
  · rfl
  · next r => exact bus_chan2Op_ne (fun e => other (by rw [e, busWriter_twoOp r])) s

theorem bus_foldl_of_not_writer {l : List Chan} {s : State} {c : Chan} (fresh : busWriter s c ∉ l) :
    bus (l.foldl chanStep s) c = bus s c := by
  induction l generalizing s with
  | nil => rfl
  | cons d l ih =>
    obtain ⟨other, fresh⟩ := not_or.mp (mt List.mem_cons.mpr fresh)
    rw [List.foldl_cons, ih ((BusFrame.chanStep s d).busWriter c ▸ fresh), bus_chanStep_of_not_writer other]

/-! ### The turn of a channel -/

/-- In `u` the turn of channel `w` comes in the step 3 that starts in `s`: the history of its Slot 1 and the buses it writes
are untouched, and its contribution leaves these buses as step 3 does. -/
structure Turn (s u : State) (w : Chan) : Prop where
  frame : BusFrame s u
  cells : fbCells u w = fbCells s w
  start : ∀ c, busWriter s c = w → bus u c = bus s c
  final : ∀ c, busWriter s c = w → bus (channelsStep s) c = bus (chanStep u w) c

/-- Every channel that exists has its turn: the state after the channels before it. -/
theorem exists_turn {s : State} {w : Chan} (has : s.hasChan w = true) : ∃ u, Turn s u w := by
  obtain ⟨before, after, order⟩ := List.append_of_mem (mem_chanList.mpr has)
  have distinct := chanList_nodup s
  rw [order, List.nodup_append, List.nodup_cons] at distinct
  obtain ⟨-, ⟨notAfter, -⟩, apart⟩ := distinct
  have notBefore : w ∉ before := fun mem => apart w mem w List.mem_cons_self rfl
  have present : ∀ d ∈ before, s.hasChan d = true := fun d mem =>
    mem_chanList.mp (order ▸ List.mem_append_left _ mem)
  refine ⟨before.foldl chanStep s, BusFrame.foldl before s, fbCells_foldl_of_not_mem notBefore present, ?_, ?_⟩
  · rintro c rfl
    exact bus_foldl_of_not_writer notBefore
  · rintro c rfl
    have frame := (BusFrame.foldl before s).trans (BusFrame.chanStep (before.foldl chanStep s) (busWriter s c))
    rw [channelsStep, order, List.foldl_append, List.foldl_cons]
    exact bus_foldl_of_not_writer (by rw [frame.busWriter]; exact notAfter)

end Sys2Proof.Machine
end

section
/-! SUPPORT. The buses and the mix after a tick: steps 5 to 8 touch neither, so they are what steps 3 and 4 left
(44_channel_router.md R241, 48_sample_tick.md R341). -/

namespace Sys2Proof.Machine

/-! ### Steps 5 to 8 -/

/-- The buses, the enables of the outputs and the mixed samples are the same. -/
structure SampleFrame (s t : State) : Prop where
  mixL : t.mixL = s.mixL
  mixR : t.mixR = s.mixR
  bus  : ∀ c, bus t c = bus s c
  panL : ∀ c, (t.chan c).panL = (s.chan c).panL
  panR : ∀ c, (t.chan c).panR = (s.chan c).panR

namespace SampleFrame

variable {s t u : State}

theorem trans (h : SampleFrame s t) (k : SampleFrame t u) : SampleFrame s u where
  mixL := k.mixL.trans h.mixL
  mixR := k.mixR.trans h.mixR
  bus c := (k.bus c).trans (h.bus c)
  panL c := (k.panL c).trans (h.panL c)
  panR c := (k.panR c).trans (h.panR c)

/-- A change of the generators alone. -/
theorem of_gens (s : State) (g : Gens) : SampleFrame s { s with gens := g } :=
  ⟨rfl, rfl, fun _ => rfl, fun _ => rfl, fun _ => rfl⟩

/-- A change of every channel that keeps its bus and its enables. -/
theorem mapChans (s : State) {f : Chan → Channel → Channel} (out : ∀ c ch, (f c ch).chanout = ch.chanout)
    (left : ∀ c ch, (f c ch).panL = ch.panL) (right : ∀ c ch, (f c ch).panR = ch.panR) :
    SampleFrame s (s.mapChans f) where
  mixL := mapChans_mixL s f
  mixR := mapChans_mixR s f
  bus c := by
    unfold Machine.bus
    rw [mapChans_chan]
    split
    · exact out _ _
    · rfl
  panL c := by
    rw [mapChans_chan]
    split
    · exact left _ _
    · rfl
  panR c := by
    rw [mapChans_chan]
    split
    · exact right _ _
    · rfl

theorem peakStep (s : State) : SampleFrame s (peakStep s) :=
  mapChans s (fun _ _ => rfl) (fun _ _ => rfl) (fun _ _ => rfl)

theorem egTick (s : State) : SampleFrame s (egTick s) := by
  unfold Machine.egTick
  exact (of_gens s _).trans (mapChans _ (fun _ _ => rfl) (fun _ _ => rfl) (fun _ _ => rfl))

theorem egAdvance (s : State) : SampleFrame s (egAdvance s) :=
  repeat_keeps (P := SampleFrame s) (fun t h => h.trans (egTick t)) _ (of_gens s _)

theorem phaseAdvance (s : State) : SampleFrame s (phaseAdvance s) :=
  mapChans s (fun _ _ => rfl) (fun _ _ => rfl) (fun _ _ => rfl)

theorem advanceSteps (s : State) : SampleFrame s (advanceSteps s) :=
  (peakStep s).trans ((egAdvance _).trans ((phaseAdvance _).trans (of_gens _ _)))

end SampleFrame

/-! ### The buses after a tick -/

theorem bus_clearOut {s : State} {c : Chan} (has : s.hasChan c = true) : bus (clearOut s) c = 0 := by
  rw [bus, clearOut_chan, if_pos has]

/-- The buses after a tick are those that step 3 left. -/
theorem bus_tickSteps (s : State) (c : Chan) :
    bus (tickSteps s) c = bus (channelsStep (clearOut (lfoAdvance s))) c := by
  rw [tickSteps, (SampleFrame.advanceSteps _).bus, sampleSteps, bus, mixStep_chan, bus]

/-- After a tick that gives channel `w` its turn in `u`, the buses that `w` writes hold its contribution alone. -/
theorem tick_turn {s : State} {w : Chan} (has : s.hasChan w = true) :
    ∃ u, BusFrame (lfoAdvance s) u ∧ nextCells u w = fbCells (tickSteps s) w ∧ fbCells u w = fbCells s w ∧
      ∀ c, busWriter s c = w → s.hasChan c = true → bus u c = 0 ∧ bus (tickSteps s) c = bus (chanStep u w) c := by
  have clear := BusFrame.clearOut (lfoAdvance s)
  obtain ⟨u, turn⟩ := exists_turn (s := clearOut (lfoAdvance s)) ((clear.hasChan w).trans has)
  have frame := clear.trans turn.frame
  have cells : fbCells u w = fbCells (lfoAdvance s) w := turn.cells.trans (fbCells_clearOut _ w)
  refine ⟨u, frame, (nextCells_congr frame cells).trans (fbCells_tickSteps has).symm, cells, fun c writes hasc => ?_⟩
  have writer : busWriter (clearOut (lfoAdvance s)) c = w := (clear.busWriter c).trans writes
  exact ⟨(turn.start c writer).trans (bus_clearOut hasc), (bus_tickSteps s c).trans (turn.final c writer)⟩

/-- The bus of a two-operator channel after a tick (44_channel_router.md R232). -/
theorem bus_tickSteps_twoOp {s : State} {c : Chan} (has : s.hasChan c = true) (r : role s c = .twoOp) :
    bus (tickSteps s) c = BitVec.ofInt 32 (pairSum (lfoAdvance s) c
      (if s.cfg.slot1Delayed then (fbCells s c).2.toInt else (fbCells (tickSteps s) c).2.toInt)) := by
  obtain ⟨u, frame, next, cells, buses⟩ := tick_turn has
  obtain ⟨zero, final⟩ := buses c (busWriter_twoOp r) has
  have same : role u c = .twoOp := (frame.role c).trans r
  have cfg : u.cfg = s.cfg := frame.cfg
  have step : chanStep u c = chan2Op u c := by unfold chanStep; rw [same]
  rw [nextCells, if_pos (.inl same)] at next
  rw [final, step, bus_chan2Op_same ((frame.hasChan c).trans has), zero, pairSum_congr frame, next, cells, cfg]
  exact BitVec.zero_add _

/-- The two buses of a four-operator voice after a tick (44_channel_router.md R234). -/
theorem bus_tickSteps_voice {s : State} {m n : Chan} (r : role s m = .master) (hn : n.val = m.val + 3) :
    let sums := voiceSums (lfoAdvance s) m n (fbCells (tickSteps s) m).2.toInt
    bus (tickSteps s) m = BitVec.ofInt 32 sums.1 ∧ bus (tickSteps s) n = BitVec.ofInt 32 sums.2 := by
  have master := (role_master_iff s m).mp r
  obtain rfl : n = pairHigh m := Fin.ext (hn.trans (pairHigh_val (isMaster_pairLow master)).symm)
  have has : ∀ c, s.hasChan c = true := hasChan_v2 ((isMaster_iff s m).mp master).1
  obtain ⟨u, frame, next, -, buses⟩ := tick_turn (has m)
  obtain ⟨zeroM, finalM⟩ := buses m (busWriter_master master) (has m)
  obtain ⟨zeroN, finalN⟩ := buses (pairHigh m) (busWriter_slave master hn) (has _)
  have same : role u m = .master := (frame.role m).trans r
  have step : chanStep u m = chan4Op u m := by unfold chanStep; rw [same]
  rw [nextCells, if_pos (.inr (.inl same))] at next
  constructor
  · rw [finalM, step, bus_chan4Op_master ((frame.hasChan _).trans (has _)), zeroM, voiceSums_congr frame, next]
    exact BitVec.zero_add _
  · rw [finalN, step, bus_chan4Op_slave ((frame.hasChan _).trans (has _)), zeroN, voiceSums_congr frame, next]
    exact BitVec.zero_add _

/-! ### The mix after a tick -/

/-- The enables of both outputs are in the frame of the contributions. -/
theorem BusFrame.pan {s t : State} (h : BusFrame s t) (c : Chan) :
    (t.chan c).panL = (s.chan c).panL ∧ (t.chan c).panR = (s.chan c).panR := by
  rw [h.chan c]; exact ⟨rfl, rfl⟩

/-- A tick changes no enable. -/
theorem tickSteps_pan (s : State) (c : Chan) :
    ((tickSteps s).chan c).panL = (s.chan c).panL ∧ ((tickSteps s).chan c).panR = (s.chan c).panR := by
  have after := SampleFrame.advanceSteps (sampleSteps s)
  have frame := (BusFrame.clearOut (lfoAdvance s)).trans (BusFrame.channelsStep _)
  rw [tickSteps, after.panL, after.panR, sampleSteps, mixStep_chan]
  exact frame.pan c

/-- The variant and the enables of a channel put its bus on an output (44_channel_router.md R241). -/
def routed (x : Variant) (pan : Channel → Bool) (ch : Channel) : Bool :=
  match x with
  | .v1 => true
  | .v2 => pan ch

theorem routed_iff (x : Variant) (pan : Channel → Bool) (ch : Channel) :
    routed x pan ch = true ↔ x = .v1 ∨ pan ch = true := by
  cases x
  · exact iff_of_true rfl (.inl rfl)
  · exact (or_iff_right nofun).symm

/-- A sum over the elements that pass a test is one over all elements, the others at 0. -/
theorem sum_filter_eq {α : Type} (l : List α) (p : α → Bool) (f : α → Int) :
    ((l.filter p).map f).sum = (l.map fun a => if p a = true then f a else 0).sum := by
  induction l with
  | nil => rfl
  | cons a l ih =>
    rw [List.filter_cons, List.map_cons, List.sum_cons, ← ih]
    split
    · rw [List.map_cons, List.sum_cons]
    · rw [Int.zero_add]

/-- The sum over the channels that exist is one over all channel numbers, the absent ones at 0. -/
theorem busSum_routed (s : State) (pan : Channel → Bool) :
    busSum s (routed s.cfg.variant pan) = (allChans.map fun c =>
      if (s.cfg.variant = .v1 ∧ c.val < 9) ∨ (s.cfg.variant = .v2 ∧ pan (s.chan c) = true) then
        (bus s c).toInt else 0).sum := by
  have mixed : ∀ c, (s.hasChan c = true ∧ routed s.cfg.variant pan (s.chan c) = true) ↔
      (s.cfg.variant = .v1 ∧ c.val < 9) ∨ (s.cfg.variant = .v2 ∧ pan (s.chan c) = true) := fun c => by
    rw [routed_iff]
    cases v : s.cfg.variant
    · simp [hasChan_v1 v]
    · simp [hasChan_v2 v]
  unfold busSum State.chanList bus
  rw [sum_filter_eq]
  congr 2
  funext c
  by_cases sent : (s.cfg.variant = .v1 ∧ c.val < 9) ∨ (s.cfg.variant = .v2 ∧ pan (s.chan c) = true)
  · obtain ⟨has, on⟩ := (mixed c).mpr sent
    rw [if_pos sent, if_pos has, if_pos on]
  · rw [if_neg sent]
    split
    · next has => exact if_neg fun on => sent ((mixed c).mp ⟨has, on⟩)
    · rfl

/-- The mixed samples of a safe state are the sums of the routed buses, with no wrap. -/
theorem mixStep_toInt {s : State} (h : SafeState s) :
    (mixStep s).mixL.toInt = busSum s (routed s.cfg.variant (·.panL)) ∧
    (mixStep s).mixR.toInt = busSum s (routed s.cfg.variant (·.panR)) := by
  have exact_sum : ∀ on, (BitVec.ofInt 32 (busSum s on)).toInt = busSum s on := fun on => by
    have := busSum_lt h on
    exact toInt_ofInt_32 (by omega)
  unfold mixStep
  cases s.cfg.variant
  · exact ⟨exact_sum _, exact_sum _⟩
  · exact ⟨exact_sum _, exact_sum _⟩

/-- The per-voice pair is the bus where it is routed. -/
theorem voiceOut_eq (s : State) (c : Chan) :
    voiceOut s c = (if routed s.cfg.variant (·.panL) (s.chan c) then bus s c else 0,
      if routed s.cfg.variant (·.panR) (s.chan c) then bus s c else 0) := by
  unfold voiceOut
  cases s.cfg.variant
  · rfl
  · rfl

/-- The mixed samples after a tick are the sums of the buses it leaves. -/
theorem mix_tickSteps {s : State} (h : SafeState s) :
    (tickSteps s).mixL.toInt = (allChans.map fun c =>
      if (s.cfg.variant = .v1 ∧ c.val < 9) ∨ (s.cfg.variant = .v2 ∧ (s.chan c).panL = true) then
        (bus (tickSteps s) c).toInt else 0).sum ∧
    (tickSteps s).mixR.toInt = (allChans.map fun c =>
      if (s.cfg.variant = .v1 ∧ c.val < 9) ∨ (s.cfg.variant = .v2 ∧ (s.chan c).panR = true) then
        (bus (tickSteps s) c).toInt else 0).sum := by
  have after := SampleFrame.advanceSteps (sampleSteps s)
  have frame := (BusFrame.clearOut (lfoAdvance s)).trans (BusFrame.channelsStep _)
  have cfg : (channelsStep (clearOut (lfoAdvance s))).cfg = s.cfg := frame.cfg
  obtain ⟨left, right⟩ := mixStep_toInt (h.lfoAdvance.clearOut.channelsStep h.lfoAdvance.clearOut_chanout)
  have panL : ∀ c, ((channelsStep (clearOut (lfoAdvance s))).chan c).panL = (s.chan c).panL := fun c => (frame.pan c).1
  have panR : ∀ c, ((channelsStep (clearOut (lfoAdvance s))).chan c).panR = (s.chan c).panR := fun c => (frame.pan c).2
  rw [busSum_routed, cfg] at left right
  simp only [panL, ← bus_tickSteps] at left
  simp only [panR, ← bus_tickSteps] at right
  exact ⟨after.mixL ▸ left, after.mixR ▸ right⟩

end Sys2Proof.Machine
end

section
/-! The statements about the channel router. -/

namespace Sys2Proof.Machine

/-- Emptying the outputs of the last command changes nothing that a two-operator channel adds. -/
theorem pairSum_begin (s : State) (c : Chan) (s1 : Int) :
    pairSum (lfoAdvance s.begin) c s1 = pairSum (lfoAdvance s) c s1 := rfl

/-- Nor anything that a voice adds. -/
theorem voiceSums_begin (s : State) (m n : Chan) (s1 : Int) :
    voiceSums (lfoAdvance s.begin) m n s1 = voiceSums (lfoAdvance s) m n s1 := rfl

theorem lfoAdvance_chan (s : State) (c : Chan) : (lfoAdvance s).chan c = s.chan c := rfl

/-- Settles O48: the bus holds the one contribution of its channel, made when its turn comes in step 3, and no later step
touches it. -/
theorem twoOperatorChannelOutput : Obligations.TwoOperatorChannelOutput := by
  intro s c live has r
  refine ⟨tickSteps s.begin, exec_live live nofun, ?_⟩
  have out := bus_tickSteps_twoOp (s := s.begin) has r
  rw [pairSum_begin, pairSum, lfoAdvance_chan] at out
  generalize tickSteps s.begin = t at out ⊢
  exact out

/-- Settles O49: both buses of a voice hold what the turn of its master adds, by the two connection bits. -/
theorem fourOperatorVoiceOutput : Obligations.FourOperatorVoiceOutput := by
  intro s m n live r hn
  refine ⟨tickSteps s.begin, exec_live live nofun, ?_⟩
  obtain ⟨master, slave⟩ := bus_tickSteps_voice (s := s.begin) r hn
  rw [voiceSums_begin, voiceSums, lfoAdvance_chan, lfoAdvance_chan] at master slave
  generalize tickSteps s.begin = t at master slave ⊢
  generalize (s.chan m).con = a, (s.chan n).con = b at master slave
  dsimp only
  cases a <;> cases b <;> exact ⟨master, slave⟩

/-- Settles O51: in a safe state the sums fit 32 bits, and steps 5 to 8 keep buses, enables and mix. -/
theorem mixIsTheExactSumOfTheBuses : Obligations.MixIsTheExactSumOfTheBuses := by
  intro s live safe
  refine ⟨tickSteps s.begin, exec_live live nofun, ?_⟩
  obtain ⟨left, right⟩ := mix_tickSteps (safe.with_out s.begin.out)
  refine ⟨left, right, fun c => ?_⟩
  have cfg : (tickSteps s.begin).cfg = s.cfg := (TickFrame.tickSteps s.begin).cfg
  obtain ⟨panL, panR⟩ := tickSteps_pan s.begin c
  rw [voiceOut_eq, cfg]
  simp only [routed_iff, panL, panR]
  rfl

end Sys2Proof.Machine
end

section
/-! SUPPORT. The rhythm channels under a tick (45_rhythm.md R251 to R257): the phase indices by cases, and the five
instruments that the one contribution of channel 6 adds to the buses of channels 6, 7 and 8. -/

namespace Sys2Proof.Machine

/-! ### The phase indices -/

theorem resBit_iff (c1 c2 : Nat) : resBit c1 c2 = true ↔
    c1.testBit 2 ≠ c1.testBit 7 ∨ c1.testBit 3 = true ∨ c2.testBit 3 ≠ c2.testBit 5 := by
  simp only [resBit, Bool.or_eq_true, bne_iff_ne, or_assoc]

theorem noiseBit_iff (s : State) : noiseBit s = true ↔ s.gens.noiseRng.toNat % 2 = 1 := by
  rw [noiseBit, BitVec.getLsbD, Nat.testBit_zero, decide_eq_true_eq]

/-- Noise moves the High-Hat within the half of the period that the counters choose (45_rhythm.md R254). -/
theorem highHatIndex_eq (c1 c2 : Nat) (noise : Bool) : (highHatIndex c1 c2 noise : Int) =
    if resBit c1 c2 = true then (if noise = true then 0x2D0 else 0x234)
    else (if noise = true then 0x034 else 0x0D0) := by
  unfold highHatIndex
  cases resBit c1 c2 <;> cases noise <;> rfl

/-- Noise flips bit 8 of the Snare Drum's index (45_rhythm.md R255). -/
theorem snareIndex_eq (c1 : Nat) (noise : Bool) : (snareIndex c1 noise : Int) =
    if noise = true then (if c1.testBit 8 = true then 0x300 else 0x000)
    else (if c1.testBit 8 = true then 0x200 else 0x100) := by
  unfold snareIndex
  cases c1.testBit 8 <;> cases noise <;> rfl

theorem cymbalIndex_eq (c1 c2 : Nat) : (cymbalIndex c1 c2 : Int) = if resBit c1 c2 = true then 0x300 else 0x100 := by
  unfold cymbalIndex
  cases resBit c1 c2 <;> rfl

theorem index_eq_div (p : Op) : p.index = p.cnt.toNat / 65536 := Nat.shiftRight_eq_div_pow _ 16

/-! ### The five instruments -/

/-- The output of the Bass Drum when Slot 1 hands on `s1`. -/
def bassOut (s : State) (s1 : Int) : Int := slotN s ⟨6, .two⟩ (if (s.chan 6).con then 0 else s1)

/-- The output of the High-Hat. -/
def hatOut (s : State) : Int := opAt s ⟨7, .one⟩ (highHatIndex (rhythmC1 s) (rhythmC2 s) (noiseBit s) : Nat)

/-- The output of the Snare Drum. -/
def snareOut (s : State) : Int := opAt s ⟨7, .two⟩ (snareIndex (rhythmC1 s) (noiseBit s) : Nat)

/-- The output of the Tom-Tom. -/
def tomOut (s : State) : Int := slotN s ⟨8, .one⟩ 0

/-- The output of the Top Cymbal. -/
def cymbalOut (s : State) : Int := opAt s ⟨8, .two⟩ (cymbalIndex (rhythmC1 s) (rhythmC2 s) : Nat)

section
variable {s t : State} (h : BusFrame s t)
include h

theorem bassOut_congr (s1 : Int) : bassOut t s1 = bassOut s s1 := by rw [bassOut, h.con, h.slotN, bassOut]

theorem hatOut_congr : hatOut t = hatOut s := by
  simp only [hatOut, rhythmC1, rhythmC2, noiseBit, h.opAt, h.index, h.gens]

theorem snareOut_congr : snareOut t = snareOut s := by
  simp only [snareOut, rhythmC1, noiseBit, h.opAt, h.index, h.gens]

theorem tomOut_congr : tomOut t = tomOut s := h.slotN _ _

theorem cymbalOut_congr : cymbalOut t = cymbalOut s := by
  simp only [cymbalOut, rhythmC1, rhythmC2, h.opAt, h.index]

end

/-! ### The contribution of channel 6 -/

/-- The Bass Drum takes the output of Slot 1 of the tick before. -/
theorem bassDrum_eq (s : State) : bassDrum s = addOut (slot1 s 6).1 6 (2 * bassOut s (fbCells s 6).2.toInt) := by
  rw [← bassOut_congr (BusFrame.slot1 s 6), bassOut, (BusFrame.slot1 s 6).con]
  rfl

/-- The instruments do not hear each other: each adds what it gives in the state before the first of them. -/
theorem rhythmStep_eq (s : State) : rhythmStep s =
    addOut (addOut (addOut (addOut (bassDrum s) 7 (2 * hatOut s)) 7 (2 * snareOut s)) 8 (2 * tomOut s)) 8
      (2 * cymbalOut s) := by
  have bass := BusFrame.bassDrum s
  have hat : BusFrame s (highHat (bassDrum s)) := bass.trans (.addOut _ _ _)
  have snare : BusFrame s (snareDrum (highHat (bassDrum s))) := hat.trans (.addOut _ _ _)
  have tom : BusFrame s (tomTom (snareDrum (highHat (bassDrum s)))) := snare.trans (.addOut _ _ _)
  rw [← hatOut_congr bass, ← snareOut_congr hat, ← tomOut_congr snare, ← cymbalOut_congr tom]
  rfl

section
variable {s : State}

theorem bus_rhythmStep_six (has : s.hasChan 6 = true) :
    bus (rhythmStep s) 6 = bus s 6 + BitVec.ofInt 32 (2 * bassOut s (fbCells s 6).2.toInt) := by
  have still := ((BusFrame.slot1 s 6).hasChan 6).trans has
  have seven : (6 : Chan) ≠ 7 := by decide
  have eight : (6 : Chan) ≠ 8 := by decide
  rw [rhythmStep_eq, bus_addOut_ne eight, bus_addOut_ne eight, bus_addOut_ne seven, bus_addOut_ne seven, bassDrum_eq,
    bus_addOut_same still, bus_slot1]

theorem bus_bassDrum_ne {c : Chan} (six : c ≠ 6) (s : State) : bus (bassDrum s) c = bus s c := by
  rw [bassDrum_eq, bus_addOut_ne six, bus_slot1]

theorem bus_rhythmStep_seven (has : s.hasChan 7 = true) :
    bus (rhythmStep s) 7 = bus s 7 + BitVec.ofInt 32 (2 * hatOut s + 2 * snareOut s) := by
  have still := ((BusFrame.bassDrum s).hasChan 7).trans has
  have eight : (7 : Chan) ≠ 8 := by decide
  rw [rhythmStep_eq, bus_addOut_ne eight, bus_addOut_ne eight, bus_addOut_twice still, bus_bassDrum_ne (by decide)]

theorem bus_rhythmStep_eight (has : s.hasChan 8 = true) :
    bus (rhythmStep s) 8 = bus s 8 + BitVec.ofInt 32 (2 * tomOut s + 2 * cymbalOut s) := by
  have frame := ((BusFrame.bassDrum s).trans (.addOut _ 7 (2 * hatOut s))).trans (.addOut _ 7 (2 * snareOut s))
  have still := (frame.hasChan 8).trans has
  have seven : (8 : Chan) ≠ 7 := by decide
  rw [rhythmStep_eq, bus_addOut_twice still, bus_addOut_ne seven, bus_addOut_ne seven, bus_bassDrum_ne (by decide)]

end

/-! ### The buses after a tick -/

/-- Both variants have the channels 0 to 8. -/
theorem hasChan_of_lt (s : State) {c : Chan} (h : c.val < 9) : s.hasChan c = true := by
  cases v : s.cfg.variant
  · rw [hasChan_v1 v, decide_eq_true h]
  · exact hasChan_v2 v c

/-- The three buses hold what the turn of channel 6 adds, at this tick's tremolo value. -/
theorem bus_tickSteps_rhythm {s : State} (rhy : s.glob.rhy = true) :
    bus (tickSteps s) 6 = BitVec.ofInt 32 (2 * bassOut (lfoAdvance s) (fbCells s 6).2.toInt) ∧
    bus (tickSteps s) 7 = BitVec.ofInt 32 (2 * hatOut (lfoAdvance s) + 2 * snareOut (lfoAdvance s)) ∧
    bus (tickSteps s) 8 = BitVec.ofInt 32 (2 * tomOut (lfoAdvance s) + 2 * cymbalOut (lfoAdvance s)) := by
  obtain ⟨u, frame, -, cells, buses⟩ := tick_turn (hasChan_of_lt s (c := 6) (by decide))
  have step : chanStep u 6 = rhythmStep u := by
    have same : role u 6 = .rhythm := (frame.role 6).trans ((role_rhythm_iff s 6).mpr ⟨rhy, by decide⟩)
    unfold chanStep
    rw [same]
    exact if_pos rfl
  have turn (c : Chan) (range : 6 ≤ c.val ∧ c.val ≤ 8) :
      u.hasChan c = true ∧ bus u c = 0 ∧ bus (tickSteps s) c = bus (rhythmStep u) c := by
    have has := hasChan_of_lt s (c := c) (by omega)
    rw [← step]
    exact ⟨(frame.hasChan c).trans has, buses c (busWriter_rhythm ⟨rhy, range⟩) has⟩
  obtain ⟨has6, zero6, final6⟩ := turn 6 (by decide)
  obtain ⟨has7, zero7, final7⟩ := turn 7 (by decide)
  obtain ⟨has8, zero8, final8⟩ := turn 8 (by decide)
  refine ⟨?_, ?_, ?_⟩
  · rw [final6, bus_rhythmStep_six has6, zero6, bassOut_congr frame, cells]
    exact BitVec.zero_add _
  · rw [final7, bus_rhythmStep_seven has7, zero7, hatOut_congr frame, snareOut_congr frame]
    exact BitVec.zero_add _
  · rw [final8, bus_rhythmStep_eight has8, zero8, tomOut_congr frame, cymbalOut_congr frame]
    exact BitVec.zero_add _

end Sys2Proof.Machine
end

section
/-! The statement about the rhythm instruments. -/

namespace Sys2Proof.Machine

/-- Settles O50: the turn of channel 6 adds the five doubled instruments to the three cleared buses, and no later step
touches them. -/
theorem rhythmInstrumentsOutput : Obligations.RhythmInstrumentsOutput := by
  intro s live rhy
  refine ⟨tickSteps s.begin, exec_live live nofun, ?_⟩
  obtain ⟨six, seven, eight⟩ := bus_tickSteps_rhythm (s := s.begin) rhy
  generalize tickSteps s.begin = t at six seven eight ⊢
  simp only [bassOut, tomOut, slotN, index_eq, Int.add_zero] at six eight
  simp only [hatOut, snareOut, cymbalOut, highHatIndex_eq, snareIndex_eq, cymbalIndex_eq, resBit_iff, noiseBit_iff,
    rhythmC1, rhythmC2, index_eq_div] at seven eight
  simp only [opAt_eq] at six seven eight
  exact ⟨six, seven, eight⟩

end Sys2Proof.Machine
end

section
/-! SUPPORT. The oscillators and the noise generator under a tick (46_lfo_noise.md R271, R274, R278, R279): step 1 advances
the two counters, step 8 the noise, and no step between them touches either. -/

namespace Sys2Proof.Machine

/-! ### Steps 2 to 7 -/

/-- The configuration is the same, and of the generators only the envelope counters may differ. -/
structure OscFrame (s t : State) : Prop where
  cfg  : t.cfg = s.cfg
  gens : t.gens = { s.gens with egCnt := t.gens.egCnt, egTimer := t.gens.egTimer }

namespace OscFrame

variable {s t u : State}

theorem trans (h : OscFrame s t) (k : OscFrame t u) : OscFrame s u where
  cfg := k.cfg.trans h.cfg
  gens := by rw [k.gens, h.gens]

/-- A step that leaves the generators alone. -/
theorem of_gens (cfg : t.cfg = s.cfg) (gens : t.gens = s.gens) : OscFrame s t := ⟨cfg, by rw [gens]⟩

theorem of_busFrame (h : BusFrame s t) : OscFrame s t := of_gens h.cfg h.gens

theorem mixStep (s : State) : OscFrame s (mixStep s) := by
  rw [mixStep_frame]
  exact of_gens rfl rfl

theorem peakStep (s : State) : OscFrame s (peakStep s) := by
  rw [peakStep_frame]
  exact of_gens rfl rfl

theorem egTick (s : State) : OscFrame s (egTick s) := by
  rw [egTick_frame]
  exact ⟨rfl, rfl⟩

theorem egAdvance (s : State) : OscFrame s (egAdvance s) :=
  repeat_keeps (P := OscFrame s) (fun t h => h.trans (egTick t)) _ ⟨rfl, rfl⟩

theorem phaseAdvance (s : State) : OscFrame s (phaseAdvance s) := by
  rw [phaseAdvance_frame]
  exact of_gens rfl rfl

/-- Steps 2 to 7 of a tick touch neither the oscillators nor the noise generator. -/
theorem betweenAdvances (s : State) :
    OscFrame (lfoAdvance s) (Machine.phaseAdvance (Machine.egAdvance (Machine.peakStep (sampleSteps s)))) := by
  have sample : OscFrame (lfoAdvance s) (sampleSteps s) :=
    (of_busFrame ((BusFrame.clearOut _).trans (BusFrame.channelsStep _))).trans (mixStep _)
  exact sample.trans ((peakStep _).trans ((egAdvance _).trans (phaseAdvance _)))

/-- The noise advance of one state is that of any other in the frame. -/
theorem noiseAdvance_gens (h : OscFrame s t) :
    (noiseAdvance t).gens =
      { (noiseAdvance s).gens with egCnt := t.gens.egCnt, egTimer := t.gens.egTimer } := by
  unfold noiseAdvance
  dsimp only
  rw [h.cfg, h.gens]

end OscFrame

/-- The generators after a tick, but for the envelope counters: the two advances of steps 1 and 8. -/
theorem tickSteps_gens (s : State) :
    (tickSteps s).gens = { (noiseAdvance (lfoAdvance s)).gens with
      egCnt := (tickSteps s).gens.egCnt, egTimer := (tickSteps s).gens.egTimer } :=
  (OscFrame.betweenAdvances s).noiseAdvance_gens

/-! ### The two advances as arithmetic -/

/-- Below its bound the tremolo counter and its increment fit 32 bits, so only the reduction shows (46_lfo_noise.md
R271). -/
theorem lfoAmNext_toNat {cfg : Config} (hc : boundedConfig cfg = true) {cnt : BitVec 32} (h : cnt.toNat < lfoAmWrap) :
    (lfoAmNext cfg cnt).toNat =
      if lfoAmWrap ≤ cnt.toNat + cfg.rates.lfoAmInc.toNat then cnt.toNat + cfg.rates.lfoAmInc.toNat - lfoAmWrap
      else cnt.toNat + cfg.rates.lfoAmInc.toNat := by
  have inc := lfoAmInc_le hc
  unfold lfoAmNext
  dsimp only
  rw [BitVec.toNat_ofNat]
  apply Nat.mod_eq_of_lt
  unfold lfoAmWrap at *
  split <;> omega

theorem noiseAdvance_noiseP_toNat (s : State) :
    (noiseAdvance s).gens.noiseP.toNat = (s.gens.noiseP.toNat + s.cfg.rates.noiseF.toNat) % 2 ^ 16 :=
  BitVec.toNat_ofNat _ _

theorem noiseAdvance_noiseRng (s : State) :
    (noiseAdvance s).gens.noiseRng =
      Nat.repeat noiseStep ((s.gens.noiseP.toNat + s.cfg.rates.noiseF.toNat) / 2 ^ 16) s.gens.noiseRng := by
  rw [← Nat.shiftRight_eq_div_pow]
  rfl

/-! ### One noise step as arithmetic -/

/-- The exclusive-or stays within 24 bits, so after the shift nothing is cut off (46_lfo_noise.md R278). -/
theorem noiseStep_toNat (r : BitVec 23) :
    (noiseStep r).toNat = (if r.toNat % 2 = 1 then r.toNat ^^^ 0x800302 else r.toNat) / 2 := by
  have small : r.toNat < 2 ^ 24 := Nat.lt_trans r.isLt (by decide)
  have wide : (r.setWidth 24).toNat = r.toNat := BitVec.toNat_setWidth_of_le (by decide)
  have mixed : r.toNat ^^^ 0x800302 < 2 ^ 24 := Nat.xor_lt_two_pow small (by decide)
  have xored : (r.setWidth 24 ^^^ 0x800302).toNat = r.toNat ^^^ 0x800302 := by rw [BitVec.toNat_xor, wide]; rfl
  have odd : r.getLsbD 0 = true ↔ r.toNat % 2 = 1 := by rw [BitVec.getLsbD, Nat.testBit_zero, decide_eq_true_eq]
  unfold noiseStep
  simp only [odd, BitVec.toNat_setWidth, BitVec.toNat_ushiftRight, Nat.shiftRight_eq_div_pow, Nat.pow_one]
  split
  · rw [xored]
    exact Nat.mod_eq_of_lt (by omega)
  · rw [wide]
    exact Nat.mod_eq_of_lt (by omega)

end Sys2Proof.Machine
end

section
/-! The statements about the oscillators and the noise generator. -/

namespace Sys2Proof.Machine

/-- Settles O32: the generators after the tick are those of steps 1 and 8, and each is its own arithmetic. -/
theorem tickAdvancesTheOscillators : Obligations.TickAdvancesTheOscillators := by
  intro s live bounded below
  refine ⟨tickSteps s.begin, exec_live live nofun, ?_⟩
  rw [tickSteps_gens]
  exact ⟨lfoAmNext_toNat bounded below, BitVec.toNat_add _ _, noiseAdvance_noiseP_toNat (lfoAdvance s.begin),
    noiseAdvance_noiseRng (lfoAdvance s.begin)⟩

/-- Settles O33: the step as arithmetic, and the two cases in which a bit of the register survives. -/
theorem noiseStepNeverReachesZero : Obligations.NoiseStepNeverReachesZero :=
  fun r => ⟨noiseStep_toNat r, noiseStep_ne_zero⟩

end Sys2Proof.Machine
end

section
/-! SUPPORT. Writes that change operators only (47_register_writes.md R295 to R299, R301, R302): their frame, and updates
of a list of distinct operators. -/

namespace Sys2Proof.Machine

/-! ### The frame -/

theorem setOp_own (ch : Channel) (sl : Slot) (p : Op) : (ch.setOp sl p).own = ch.own := by cases sl <;> rfl

/-- Only operators may differ. -/
structure OpsFrame (s t : State) : Prop where
  same : t = { s with chans := t.chans }
  own  : ∀ c, (t.chan c).own = (s.chan c).own

namespace OpsFrame

variable {s t u : State}

theorem refl (s : State) : OpsFrame s s := ⟨rfl, fun _ => rfl⟩

theorem trans (h : OpsFrame s t) (k : OpsFrame t u) : OpsFrame s u where
  same := by rw [k.same, h.same]
  own c := (k.own c).trans (h.own c)

theorem updOp (s : State) (o : OpRef) (f : Op → Op) : OpsFrame s (s.updOp o f) where
  same := by unfold State.updOp State.updChan; split <;> rfl
  own c := by
    rw [updOp_chan]
    split
    · next e => rw [setOp_own, e.1]
    · rfl

theorem foldl {α : Type} (g : α → OpRef) (f : α → Op → Op) (l : List α) (s : State) :
    OpsFrame s (l.foldl (fun t a => t.updOp (g a) (f a)) s) := by
  induction l generalizing s with
  | nil => exact refl s
  | cons a l ih => exact (updOp s _ _).trans (ih _)

theorem cfg (h : OpsFrame s t) : t.cfg = s.cfg := by rw [h.same]
theorem glob (h : OpsFrame s t) : t.glob = s.glob := by rw [h.same]
theorem out (h : OpsFrame s t) : t.out = s.out := by rw [h.same]

theorem hasChan (h : OpsFrame s t) (c : Chan) : t.hasChan c = s.hasChan c := by
  unfold State.hasChan; rw [h.cfg]

theorem fnum (h : OpsFrame s t) (c : Chan) : (t.chan c).fnum = (s.chan c).fnum := by
  change (t.chan c).own.fnum = _
  rw [h.own]
  rfl

theorem block (h : OpsFrame s t) (c : Chan) : (t.chan c).block = (s.chan c).block := by
  change (t.chan c).own.block = _
  rw [h.own]
  rfl

end OpsFrame

/-! ### What the configuration and the global fields determine -/

section

variable {s t : State} (cfg : t.cfg = s.cfg) (glob : t.glob = s.glob)
include cfg glob

theorem isMaster_congr (c : Chan) : isMaster t c = isMaster s c := by
  unfold isMaster extOf; rw [cfg, glob]

theorem isSlave_congr (c : Chan) : isSlave t c = isSlave s c := by
  unfold isSlave; split
  · exact isMaster_congr cfg glob _
  · rfl

theorem fsrc_congr (c : Chan) : fsrc t c = fsrc s c := by
  unfold fsrc; split
  · rw [isMaster_congr cfg glob]
  · rfl

theorem konTargets_congr (c : Chan) : konTargets t c = konTargets s c := by
  unfold konTargets; rw [isSlave_congr cfg glob, isMaster_congr cfg glob]

end

theorem OpsFrame.blockFnum {s t : State} (h : OpsFrame s t) (c : Chan) : blockFnum t c = blockFnum s c := by
  unfold Machine.blockFnum; rw [fsrc_congr h.cfg h.glob, h.block, h.fnum]

theorem OpsFrame.kcode {s t : State} (h : OpsFrame s t) (c : Chan) : kcode t c = kcode s c := by
  unfold Machine.kcode; rw [h.blockFnum, h.glob]

/-! ### Updates of distinct operators -/

theorem setChan_chan_self (s : State) (c : Chan) : s.setChan c (s.chan c) = s := by
  change { s with chans := s.chans.set c s.chans[c.val] } = s
  rw [Vector.set_getElem_self]

theorem updChan_of_fixed {s : State} {c : Chan} {f : Channel → Channel}
    (h : s.hasChan c = true → f (s.chan c) = s.chan c) : s.updChan c f = s := by
  unfold State.updChan
  split
  · next has => rw [h has, setChan_chan_self]
  · rfl

theorem updOp_of_fixed {s : State} {o : OpRef} {f : Op → Op} (h : s.hasChan o.ch = true → f (s.op o) = s.op o) :
    s.updOp o f = s :=
  updChan_of_fixed fun has => by
    change (s.chan o.ch).setOp o.slot (f (s.op o)) = s.chan o.ch
    rw [h has]
    exact setOp_op_self _ _

section

variable {α : Type} {g : α → OpRef} {f : α → Op → Op} {l : List α}

theorem foldl_updOp_of_fixed {s : State}
    (h : ∀ a ∈ l, s.hasChan (g a).ch = true → f a (s.op (g a)) = s.op (g a)) :
    l.foldl (fun t a => t.updOp (g a) (f a)) s = s := by
  induction l with
  | nil => rfl
  | cons a l ih =>
    rw [List.foldl_cons, updOp_of_fixed (h a List.mem_cons_self)]
    exact ih fun b mem => h b (List.mem_cons_of_mem a mem)

/-- Each operator of a list of distinct ones is updated once. -/
theorem foldl_updOp_op_of_mem (distinct : (l.map g).Nodup) {a : α} (mem : a ∈ l) {s : State}
    (has : s.hasChan (g a).ch = true) :
    (l.foldl (fun t a => t.updOp (g a) (f a)) s).op (g a) = f a (s.op (g a)) := by
  induction l generalizing s with
  | nil => cases mem
  | cons b l ih =>
    rw [List.map_cons, List.nodup_cons] at distinct
    obtain ⟨fresh, distinct⟩ := distinct
    rw [List.foldl_cons]
    rcases List.mem_cons.mp mem with rfl | later
    · have others : ∀ b ∈ l, g b ≠ g a := fun b mem e => fresh (e ▸ List.mem_map_of_mem mem)
      rw [foldl_updOp_op_of_ne others, updOp_op, if_pos ⟨rfl, has⟩]
    · have ne : g a ≠ g b := fun e => fresh (e ▸ List.mem_map_of_mem later)
      rw [ih distinct later (by rw [updOp_hasChan]; exact has), updOp_op, if_neg fun e => ne e.1]

/-- Idempotent updates of distinct operators change nothing a second time. -/
theorem foldl_updOp_idem (distinct : (l.map g).Nodup) (idem : ∀ a p, f a (f a p) = f a p) (s : State) :
    l.foldl (fun t a => t.updOp (g a) (f a)) (l.foldl (fun t a => t.updOp (g a) (f a)) s) =
      l.foldl (fun t a => t.updOp (g a) (f a)) s := by
  refine foldl_updOp_of_fixed fun a mem has => ?_
  rw [OpsFrame.hasChan (OpsFrame.foldl g f l s)] at has
  rw [foldl_updOp_op_of_mem distinct mem has, idem]

end

end Sys2Proof.Machine
end

section
/-! SUPPORT. The two key writes (47_register_writes.md R301, R302): which operators they key, and what a key event does
a second time. -/

namespace Sys2Proof.Machine

/-! ### A key event twice -/

theorem keyOn_idem (b : BitVec 3) (p : Op) : keyOn b (keyOn b p) = keyOn b p := by
  have key : p.key ||| b ||| b = p.key ||| b := by rw [BitVec.or_assoc, BitVec.or_self]
  simp only [keyOn_spec, key]
  by_cases free : p.key = 0
  · simp only [if_pos free, ite_self]
  · have held : p.key ||| b ≠ 0 := fun e => free (BitVec.or_eq_zero_iff.mp e).1
    rw [if_neg held, if_neg held]

theorem keyOff_idem (b : BitVec 3) (p : Op) : keyOff b (keyOff b p) = keyOff b p := by
  have key : p.key &&& ~~~b &&& ~~~b = p.key &&& ~~~b := by rw [BitVec.and_assoc, BitVec.and_self]
  rw [keyOff_spec b (keyOff b p)]
  simp only [keyOff_key, key]
  rw [if_neg fun e => e.1 e.2.1, ← keyOff_key]

theorem keyEvent_idem (on : Bool) (b : BitVec 3) (p : Op) : keyEvent on b (keyEvent on b p) = keyEvent on b p := by
  cases on
  · exact keyOff_idem b p
  · exact keyOn_idem b p

/-! ### `KONBLK` -/

/-- The pitch that `KONBLK` stores. -/
def setPitch (block : BitVec 3) (hi : BitVec 2) (ch : Channel) : Channel :=
  { ch with fnum := hi ++ ch.fnum.extractLsb' 0 8, block := block }

theorem writeKonblk_eq (c : Chan) (kon : Bool) (block : BitVec 3) (hi : BitVec 2) (s : State) :
    writeKonblk c kon block hi s =
      (konTargets s c).foldl (fun t o => t.updOp o (keyEvent kon keyBitChannel)) (s.updChan c (setPitch block hi)) := rfl

theorem setPitch_op (block : BitVec 3) (hi : BitVec 2) (ch : Channel) (sl : Slot) :
    (setPitch block hi ch).op sl = ch.op sl := by cases sl <;> rfl

theorem konTargets_distinct (s : State) (c : Chan) : ((konTargets s c).map id).Nodup := by
  rw [List.map_id]; exact OpWrite.konTargets_nodup s c

/-- The key bit reaches the channel's own operators and those of a master's slave; that of a slave reaches none. -/
theorem mem_konTargets (s : State) (c : Chan) (o : OpRef) :
    o ∈ konTargets s c ↔ isSlave s c = false ∧ (o.ch = c ∨ (isMaster s c = true ∧ o.ch.val = c.val + 3)) := by
  have own : ∀ d : Chan, o ∈ [(⟨d, .one⟩ : OpRef), ⟨d, .two⟩] ↔ o.ch = d := fun d => by
    rcases o with ⟨e, sl⟩
    cases sl <;> simp
  unfold konTargets
  by_cases slave : isSlave s c = true
  · rw [if_pos slave, slave]
    simp
  rw [if_neg slave, Bool.eq_false_iff.mpr slave]
  by_cases master : isMaster s c = true
  · have low := isMaster_pairLow master
    have high : o.ch = pairHigh c ↔ o.ch.val = c.val + 3 := by
      unfold pairHigh
      rw [Fin.ext_iff, Fin.val_add]
      change o.ch.val = (c.val + 3) % 18 ↔ _
      omega
    have both := List.mem_append (a := o) (s := [⟨c, .one⟩, ⟨c, .two⟩]) (t := [⟨pairHigh c, .one⟩, ⟨pairHigh c, .two⟩])
    rw [own, own, high] at both
    rw [if_pos master, master]
    simpa only [true_and, List.cons_append, List.nil_append] using both
  · rw [if_neg master, own]
    simp [master]

theorem hasChan_of_mem_konTargets {s : State} {c : Chan} {o : OpRef} (has : s.hasChan c = true)
    (mem : o ∈ konTargets s c) : s.hasChan o.ch = true := by
  obtain ⟨-, rfl | ⟨master, -⟩⟩ := (mem_konTargets s c o).mp mem
  · exact has
  · exact hasChan_v2 ((isMaster_iff s c).mp master).1 _

/-- The key events of `KONBLK` change operators only. -/
theorem writeKonblk_opsFrame (c : Chan) (kon : Bool) (block : BitVec 3) (hi : BitVec 2) (s : State) :
    OpsFrame (s.updChan c (setPitch block hi)) (writeKonblk c kon block hi s) :=
  OpsFrame.foldl id _ _ _

theorem writeKonblk_op {s : State} {c : Chan} (has : s.hasChan c = true) (kon : Bool) (block : BitVec 3)
    (hi : BitVec 2) (o : OpRef) :
    (writeKonblk c kon block hi s).op o =
      if isSlave s c = false ∧ (o.ch = c ∨ (isMaster s c = true ∧ o.ch.val = c.val + 3)) then
        keyEvent kon keyBitChannel (s.op o)
      else s.op o := by
  have pitch : (s.updChan c (setPitch block hi)).op o = s.op o := updChan_op (setPitch_op block hi) o
  rw [writeKonblk_eq, ← pitch]
  split
  · next target =>
    rw [← mem_konTargets] at target
    exact foldl_updOp_op_of_mem (g := id) (konTargets_distinct s c) target
      (by rw [updChan_hasChan]; exact hasChan_of_mem_konTargets has target)
  · next other =>
    rw [← mem_konTargets] at other
    exact foldl_updOp_op_of_ne (g := id) (fun a mem (e : a = o) => other (e ▸ mem)) _

theorem setPitch_of_same {block : BitVec 3} {hi : BitVec 2} {old new : Channel}
    (fnum : new.fnum = (setPitch block hi old).fnum) (blk : new.block = block) : setPitch block hi new = new := by
  have low : (hi ++ old.fnum.extractLsb' 0 8).extractLsb' 0 8 = old.fnum.extractLsb' 0 8 :=
    BitVec.extractLsb'_append_eq_right
  have kept : hi ++ new.fnum.extractLsb' 0 8 = new.fnum := by
    rw [fnum]
    change hi ++ (hi ++ old.fnum.extractLsb' 0 8).extractLsb' 0 8 = _
    rw [low]
    rfl
  unfold setPitch
  rw [kept, ← blk]

theorem writeKonblk_idem (c : Chan) (kon : Bool) (block : BitVec 3) (hi : BitVec 2) (s : State) :
    writeKonblk c kon block hi (writeKonblk c kon block hi s) = writeKonblk c kon block hi s := by
  have keys := writeKonblk_opsFrame c kon block hi s
  have targets : konTargets (writeKonblk c kon block hi s) c = konTargets s c :=
    konTargets_congr (keys.cfg.trans (updChan_cfg ..)) (keys.glob.trans (updChan_glob ..)) c
  have pitch : (writeKonblk c kon block hi s).updChan c (setPitch block hi) = writeKonblk c kon block hi s :=
    updChan_of_fixed fun has => by
      rw [keys.hasChan, updChan_hasChan] at has
      have stored : (s.updChan c (setPitch block hi)).chan c = setPitch block hi (s.chan c) := by
        rw [updChan_chan, if_pos ⟨rfl, has⟩]
      refine setPitch_of_same (old := s.chan c) ?_ ?_
      · rw [keys.fnum, stored]
      · rw [keys.block, stored]; rfl
  rw [writeKonblk_eq c kon block hi (writeKonblk c kon block hi s), targets, pitch]
  exact foldl_updOp_idem (g := id) (konTargets_distinct s c) (fun _ => keyEvent_idem kon keyBitChannel) _

/-! ### `RHYTHM` -/

/-- The eight fields that `RHYTHM` stores. -/
def setRhythm (dam dvb rhy bd sd tom tc hh : Bool) (g : Globals) : Globals :=
  { g with dam := dam, dvb := dvb, rhy := rhy, bd := bd, sd := sd, tom := tom, tc := tc, hh := hh }

theorem writeRhythm_eq (dam dvb rhy bd sd tom tc hh : Bool) (s : State) :
    writeRhythm dam dvb rhy bd sd tom tc hh s =
      rhythmKeys { s with glob := setRhythm dam dvb rhy bd sd tom tc hh s.glob } := rfl

theorem rhythmTargets_distinct (g : Globals) : ((rhythmTargets g).map (·.1)).Nodup := by
  change [(⟨6, .one⟩ : OpRef), ⟨6, .two⟩, ⟨7, .one⟩, ⟨7, .two⟩, ⟨8, .one⟩, ⟨8, .two⟩].Nodup
  decide

theorem rhythmTargets_chan {g : Globals} {ob : OpRef × Bool} (mem : ob ∈ rhythmTargets g) :
    ob.1.ch = 6 ∨ ob.1.ch = 7 ∨ ob.1.ch = 8 := by
  simp only [rhythmTargets, List.mem_cons, List.not_mem_nil, or_false] at mem
  rcases mem with rfl | rfl | rfl | rfl | rfl | rfl <;> simp

theorem rhythmKeys_opsFrame (s : State) : OpsFrame s (rhythmKeys s) := OpsFrame.foldl _ _ _ _

/-- The key events of `RHYTHM` change operators only. -/
theorem writeRhythm_opsFrame (dam dvb rhy bd sd tom tc hh : Bool) (s : State) :
    OpsFrame { s with glob := setRhythm dam dvb rhy bd sd tom tc hh s.glob }
      (writeRhythm dam dvb rhy bd sd tom tc hh s) := rhythmKeys_opsFrame _

theorem rhythmKeys_op_of_mem {s : State} {ob : OpRef × Bool} (mem : ob ∈ rhythmTargets s.glob) :
    (rhythmKeys s).op ob.1 = keyEvent (s.glob.rhy && ob.2) keyBitRhythm (s.op ob.1) := by
  have has : s.hasChan ob.1.ch = true :=
    hasChan_of_lt s (by rcases rhythmTargets_chan mem with e | e | e <;> rw [e] <;> decide)
  exact foldl_updOp_op_of_mem (rhythmTargets_distinct s.glob) mem has

theorem rhythmKeys_op_of_ne (s : State) {o : OpRef} (six : o.ch ≠ 6) (seven : o.ch ≠ 7) (eight : o.ch ≠ 8) :
    (rhythmKeys s).op o = s.op o :=
  foldl_updOp_op_of_ne (fun ob mem e => by
    rcases rhythmTargets_chan mem with h | h | h
    · exact six (e ▸ h)
    · exact seven (e ▸ h)
    · exact eight (e ▸ h)) s

/-- Each rhythm operator is keyed by its own bit and `RHY`, as just stored. -/
theorem writeRhythm_op_of_mem {dam dvb rhy bd sd tom tc hh : Bool} {s : State} {o : OpRef} {on : Bool}
    (mem : (o, on) ∈ rhythmTargets (setRhythm dam dvb rhy bd sd tom tc hh s.glob)) :
    (writeRhythm dam dvb rhy bd sd tom tc hh s).op o =
      if rhy = true ∧ on = true then keyOn 2 (s.op o) else keyOff 2 (s.op o) := by
  simp only [← Bool.and_eq_true]
  exact rhythmKeys_op_of_mem (s := { s with glob := setRhythm dam dvb rhy bd sd tom tc hh s.glob }) mem

theorem rhythmKeys_idem (s : State) : rhythmKeys (rhythmKeys s) = rhythmKeys s := by
  rw [rhythmKeys, (rhythmKeys_opsFrame s).glob]
  exact foldl_updOp_idem (rhythmTargets_distinct s.glob) (fun _ => keyEvent_idem _ _) s

theorem writeRhythm_idem (dam dvb rhy bd sd tom tc hh : Bool) (s : State) :
    writeRhythm dam dvb rhy bd sd tom tc hh (writeRhythm dam dvb rhy bd sd tom tc hh s) =
      writeRhythm dam dvb rhy bd sd tom tc hh s := by
  have stored : ∀ t : State, t.glob = setRhythm dam dvb rhy bd sd tom tc hh s.glob →
      { t with glob := setRhythm dam dvb rhy bd sd tom tc hh t.glob } = t := fun t e => by
    rw [e]
    change { t with glob := setRhythm dam dvb rhy bd sd tom tc hh s.glob } = t
    rw [← e]
  rw [writeRhythm_eq dam dvb rhy bd sd tom tc hh (writeRhythm ..), writeRhythm_eq, stored _ (rhythmKeys_opsFrame _).glob,
    rhythmKeys_idem]

/-! ### Both key writes -/

theorem isRegWrite_of_isKeyWrite {i : Instr} (h : isKeyWrite i = true) : isRegWrite i = true := by
  cases i with
  | konblk | rhythm => rfl
  | _ => cases h

theorem regOp_idem_of_isKeyWrite {i : Instr} (h : isKeyWrite i = true) (s : State) :
    regOp i (regOp i s) = regOp i s := by
  cases i with
  | konblk => exact writeKonblk_idem ..
  | rhythm => exact writeRhythm_idem ..
  | _ => cases h

/-- A key write returns nothing and emits nothing. -/
theorem regOp_out_of_isKeyWrite {i : Instr} (h : isKeyWrite i = true) (s : State) : (regOp i s).out = s.out := by
  cases i with
  | konblk c kon block hi => exact (writeKonblk_opsFrame c kon block hi s).out.trans (updChan_out ..)
  | rhythm dam dvb rhy bd sd tom tc hh => exact (rhythmKeys_opsFrame _).out
  | _ => cases h

theorem begin_of_out {s : State} (h : s.out = noOutput) : s.begin = s := by
  change { s with out := noOutput } = s
  rw [← h]

end Sys2Proof.Machine
end

section
/-! SUPPORT. `TCTL` on a consistent status byte (47_register_writes.md R290, 60_exceptions.md R365), and what every register
write does to the status byte. -/

namespace Sys2Proof.Machine

/-! ### Clearing flags -/

/-- Clearing flags clears bits only. -/
theorem clearFlags_and_self (f st : Byte) : clearFlags f st &&& st = clearFlags f st := by
  have narrow : ∀ m, st &&& m &&& st = st &&& m := fun m => by
    rw [BitVec.and_comm, ← BitVec.and_assoc, BitVec.and_self]
  unfold clearFlags
  dsimp only
  split
  · rw [BitVec.and_assoc st, narrow]
  · exact narrow _

theorem regOp_status_and_self (i : Instr) (s : State) : (regOp i s).status &&& s.status = (regOp i s).status := by
  rcases regOp_status i s with e | ⟨rst, mt1, mt2, st2, st1, rfl⟩
  · rw [e, BitVec.and_self]
  · change (writeTctl rst mt1 mt2 st2 st1 s).status &&& s.status = (writeTctl rst mt1 mt2 st2 st1 s).status
    rw [writeTctl_status, irqClear_status, clearFlags_and_self]

theorem regWrite_status_and_self (a : BitVec 9) (v : Byte) (s : State) :
    (regWrite a v s).status &&& s.status = (regWrite a v s).status := by
  unfold regWrite
  split
  · exact regOp_status_and_self _ s
  · exact BitVec.and_self

/-- A data write does not raise the line. -/
theorem regWrite_irq_falls {a : BitVec 9} {v : Byte} {s : State} (h : (regWrite a v s).irq ≠ s.irq) :
    s.irq = true ∧ (regWrite a v s).irq = false := by
  have low : ((regWrite a v s).irq && s.irq) = (regWrite a v s).irq := by
    unfold State.irq
    rw [← BitVec.getLsbD_and, regWrite_status_and_self]
  revert h low
  cases (regWrite a v s).irq <;> cases s.irq <;> simp

/-- The status byte with the flags `f1` and `f2`, and the line (60_exceptions.md R361, R365). -/
def flagByte (f1 f2 : Bool) : Byte := bit (f1 || f2) ++ bit f1 ++ bit f2 ++ 0#5

/-- The flags to clear, as `TCTL` names them. -/
def clearMask (a b : Bool) : Byte := 0#1 ++ bit a ++ bit b ++ 0#5

/-- The event of clearing flags in a state: the line falls when it was high and no flag is left. -/
def clearEvents (s : State) (f1 f2 : Bool) : List Emitted :=
  if s.irq = true ∧ f1 = false ∧ f2 = false then [.irqChanged false] else []

/-- Clearing flags of a consistent status byte. -/
theorem irqClear_of_statusOk {s : State} (h : statusOk s.status = true) (a b : Bool) :
    irqClear (clearMask a b) s =
      let f1 := s.status.getLsbD 6 && !a
      let f2 := s.status.getLsbD 5 && !b
      { s with status := flagByte f1 f2, out := { s.out with events := s.out.events ++ clearEvents s f1 f2 } } := by
  have table : ∀ st ∈ okBytes, ∀ a b : Bool,
      clearFlags (clearMask a b) st = flagByte (st.getLsbD 6 && !a) (st.getLsbD 5 && !b) ∧
      (((st &&& ~~~clearMask a b).getLsbD 7 = true ∧ st &&& ~~~clearMask a b &&& flagsBoth = 0) ↔
        st.getLsbD 7 = true ∧ (st.getLsbD 6 && !a) = false ∧ (st.getLsbD 5 && !b) = false) := by decide
  obtain ⟨cleared, falls⟩ := table _ ((statusOk_iff _).mp h) a b
  have out : (irqClear (clearMask a b) s).out =
      { s.out with events := s.out.events ++ clearEvents s (s.status.getLsbD 6 && !a) (s.status.getLsbD 5 && !b) } := by
    unfold irqClear clearEvents State.irq
    dsimp only
    simp only [falls]
    split
    · rfl
    · simp
  dsimp only
  rw [irqClear_frame, irqClear_status, cleared, out]

/-! ### The parts of `TCTL` -/

theorem writeTctl_clear (mt1 mt2 st2 st1 : Bool) (s : State) :
    writeTctl true mt1 mt2 st2 st1 s = irqClear (clearMask true true) s := rfl

/-- The masks that `TCTL` stores. -/
def setMasks (mt1 mt2 : Bool) (s : State) : State := { s with glob := { s.glob with mt1 := mt1, mt2 := mt2 } }

theorem writeTctl_store (mt1 mt2 st2 st1 : Bool) (s : State) :
    writeTctl false mt1 mt2 st2 st1 s =
      writeSt1 st1 (writeSt2 st2 (setMasks mt1 mt2 (irqClear (clearMask mt1 mt2) s))) := rfl

theorem writeSt2_eq (v : Bool) (s : State) :
    writeSt2 v s = { s with
      glob := { s.glob with st2 := v }
      out := { s.out with events := s.out.events ++
        if s.glob.st2 ≠ v then [.timerReload 1 (if v then (256 - s.glob.t2.toNat) * 16 else 0)] else [] } } := by
  unfold writeSt2
  split
  · next same => subst same; simp
  · rfl

theorem writeSt1_eq (v : Bool) (s : State) :
    writeSt1 v s = { s with
      glob := { s.glob with st1 := v }
      out := { s.out with events := s.out.events ++
        if s.glob.st1 ≠ v then [.timerReload 0 (if v then (256 - s.glob.t1.toNat) * 4 else 0)] else [] } } := by
  unfold writeSt1
  split
  · next same => subst same; simp
  · rfl

end Sys2Proof.Machine
end

section
/-! SUPPORT. What a register write can do to the dynamic state of an operator (47_register_writes.md R295, R305). -/

namespace Sys2Proof.Machine

namespace OpWrite

variable {x : Variant} {keys : Bool} {p q : Op}

/-- Only key writes touch the dynamic state. -/
theorem dynamics_of_no_keys (w : OpWrite x false p q) : q.dynamics = p.dynamics := by
  cases w with
  | fields _ dyn _ => exact dyn
  | key _ _ hk _ => cases hk

theorem attenuation_and_feedback (w : OpWrite x keys p q) : q.vol = p.vol ∧ q.fb0 = p.fb0 ∧ q.fb1 = p.fb1 := by
  cases w with
  | fields _ dyn _ => exact ⟨congrArg (·.vol) dyn, congrArg (·.fb0) dyn, congrArg (·.fb1) dyn⟩
  | key on b _ _ =>
    have move : KeyMove p (keyEvent on b p) := by
      cases on
      · exact .keyOff b p
      · exact .keyOn b p
    exact ⟨move.vol, move.fb0, move.fb1⟩

/-- An accumulator changes by the key-on of an operator that no source held, to 0. -/
theorem accumulator (w : OpWrite x keys p q) : q.cnt = p.cnt ∨ (q.cnt = 0 ∧ p.key = 0 ∧ q.key ≠ 0) := by
  cases w with
  | fields _ dyn _ => exact .inl (congrArg (·.cnt) dyn)
  | key on b _ hb =>
    cases on
    · exact .inl (by unfold keyEvent; rw [if_neg (by decide), keyOff_spec])
    · have nonzero : b ≠ 0 := by rcases hb with rfl | rfl <;> decide
      change (keyOn b p).cnt = p.cnt ∨ ((keyOn b p).cnt = 0 ∧ p.key = 0 ∧ (keyOn b p).key ≠ 0)
      rw [keyOn_spec]
      by_cases free : p.key = 0
      · exact .inr ⟨if_pos free, free, fun e => nonzero (BitVec.or_eq_zero_iff.mp e).2⟩
      · exact .inl (if_neg free)

end OpWrite

end Sys2Proof.Machine
end

section
/-! SUPPORT. Data writes (47_register_writes.md R286, R292): the location that the latched address decodes to. -/

namespace Sys2Proof.Machine

/-- The words that a data write decodes are register writes. -/
theorem isRegWrite_of_decodeR {x : Variant} {w : BitVec 17} {i : Instr} (h : decodeR x w = .ok i) :
    isRegWrite i = true := by
  unfold decodeR at h
  generalize decodeLoc x (w.getLsbD 16) (w.extractLsb' 8 8) = r at h
  cases r with
  | error => cases h
  | ok l =>
    cases h
    cases l with
    | opReg g o => cases g <;> rfl
    | _ => rfl

/-- The location that a latched address decodes to. -/
theorem decodeR_addr (x : Variant) (a : BitVec 9) (v : Byte) :
    decodeR x (a ++ v) = (decodeLoc x (a.getLsbD 8) (a.extractLsb' 0 8)).map fun l => l.instr v := by
  have parts : a = BitVec.ofBool (a.getLsbD 8) ++ a.extractLsb' 0 8 := by
    revert a; decide
  conv => lhs; rw [parts]
  exact decodeR_append ..

/-- A data write at a location that decodes to nothing returns the `IRQ` bit and does nothing else. -/
theorem exec_wrd_of_decodeR_error {s : State} {v : Byte} {e : DecodeRefusal} (live : s.live = true)
    (h : decodeR s.cfg.variant (s.addr ++ v) = .error e) :
    exec (.wrd v) s = .next { s with out := { result := .irq s.irq, events := [] } } := by
  have write : regWrite s.addr v s.begin = s.begin := by
    unfold regWrite
    rw [begin_cfg, h]
  rw [exec_live (i := .wrd v) live nofun]
  change Host.Outcome.next (regWrite s.addr v s.begin).returnsIrq = _
  rw [write]
  rfl

end Sys2Proof.Machine
end

section
/-! SUPPORT. The fields that the register writes store (47_register_writes.md sections 3 to 5). -/

namespace Sys2Proof.Machine

/-! ### Parameters at their defaults -/

theorem variantDefaults_iff (cfg : Config) : variantDefaults cfg = true ↔
    cfg.slot1Delayed = (cfg.variant == .v1) ∧ cfg.hasCsm = (cfg.variant == .v1) ∧ cfg.hasWse = (cfg.variant == .v1) := by
  unfold variantDefaults
  rw [Bool.and_eq_true, Bool.and_eq_true, beq_iff_eq, beq_iff_eq, beq_iff_eq, and_assoc]

/-! ### Operator registers -/

theorem chan_eq_setOp (s : State) (o : OpRef) : s.chan o.ch = (s.chan o.ch).setOp o.slot (s.op o) :=
  (setOp_op_self _ _).symm

theorem OnlyOp.begin (o : OpRef) (s : State) : OnlyOp o s s.begin := ⟨rfl, fun _ _ => rfl, chan_eq_setOp s o⟩

theorem updOp_op_same {s : State} {o : OpRef} (has : s.hasChan o.ch = true) (f : Op → Op) :
    (s.updOp o f).op o = f (s.op o) := by
  rw [updOp_op, if_pos ⟨rfl, has⟩]

theorem OnlyOp.updOp {s : State} {o : OpRef} (has : s.hasChan o.ch = true) (f : Op → Op) :
    OnlyOp o s (s.begin.updOp o f) := by
  refine ⟨?_, fun c ne => ?_, ?_⟩
  · unfold SameExceptChans
    rw [(OpsFrame.updOp s.begin o f).same]
    rfl
  · rw [updOp_chan, if_neg fun e => ne e.1]
    rfl
  · rw [updOp_op_same (s := s.begin) has, updOp_chan, if_pos ⟨rfl, has⟩]
    rfl

/-- A write of fields of one operator: what it stores, and that nothing else changes. -/
theorem exec_updOp {s : State} {o : OpRef} {i : Instr} {f : Op → Op} (live : s.live = true)
    (has : s.hasChan o.ch = true) (reg : isRegWrite i = true) (write : regOp i s.begin = s.begin.updOp o f) :
    exec i s = .next (s.begin.updOp o f) ∧ OnlyOp o s (s.begin.updOp o f) ∧ (s.begin.updOp o f).out = noOutput ∧
      (s.begin.updOp o f).op o = f (s.op o) :=
  ⟨by rw [exec_regWrite live reg, write], OnlyOp.updOp has f, updOp_out .., updOp_op_same (s := s.begin) has f⟩

theorem OpsFrame.incr_toNat {s t : State} (h : OpsFrame s t) (o : OpRef) :
    (incr t o).toNat = fc s o.ch * mul2 s.cfg (t.op o).mult % 2 ^ 32 := by
  unfold incr incrOf fc
  rw [h.blockFnum, h.cfg, BitVec.toNat_ofNat]

theorem OpsFrame.ksr_eq {s t : State} (h : OpsFrame s t) (o : OpRef) :
    ksr t o = if (t.op o).ksr then (Machine.kcode s o.ch).toNat else (Machine.kcode s o.ch).toNat / 4 := by
  rw [Machine.ksr_eq, h.kcode]

theorem lowWave_eq_mod (ws : BitVec 3) : lowWave ws = BitVec.ofNat 3 (ws.toNat % 4) := by
  revert ws; decide

/-! ### Channel registers -/

theorem updChan_chan_same {s : State} {c : Chan} (has : s.hasChan c = true) (f : Channel → Channel) :
    (s.updChan c f).chan c = f (s.chan c) := by
  rw [updChan_chan, if_pos ⟨rfl, has⟩]

theorem SameExceptChans.updChan (s : State) (c : Chan) (f : Channel → Channel) :
    SameExceptChans s (s.begin.updChan c f) := by
  unfold SameExceptChans State.updChan
  split <;> rfl

theorem OnlyChanFields.updChan {c : Chan} {f : Channel → Channel} (ops : ∀ ch sl, (f ch).op sl = ch.op sl)
    (s : State) : OnlyChanFields c s (s.begin.updChan c f) := by
  refine ⟨.updChan s c f, fun d ne => ?_, fun sl => ?_⟩
  · rw [updChan_chan, if_neg fun e => ne e.1]
    rfl
  · exact updChan_op (s := s.begin) ops ⟨c, sl⟩

/-- A write of fields of one channel: what it stores, and that nothing else changes. -/
theorem exec_updChan {s : State} {c : Chan} {i : Instr} {f : Channel → Channel} (live : s.live = true)
    (has : s.hasChan c = true) (reg : isRegWrite i = true) (ops : ∀ ch sl, (f ch).op sl = ch.op sl)
    (write : regOp i s.begin = s.begin.updChan c f) :
    exec i s = .next (s.begin.updChan c f) ∧ OnlyChanFields c s (s.begin.updChan c f) ∧
      (s.begin.updChan c f).out = noOutput ∧ (s.begin.updChan c f).chan c = f (s.chan c) :=
  ⟨by rw [exec_regWrite live reg, write], OnlyChanFields.updChan ops s, updChan_out ..,
    updChan_chan_same (s := s.begin) has f⟩

theorem fnum_parts (fnum : BitVec 10) : fnum.extractLsb' 8 2 ++ fnum.extractLsb' 0 8 = fnum :=
  BitVec.extractLsb'_append_extractLsb'

/-- The f-number with its low eight bits replaced. -/
theorem fnum_replace_low (fnum : BitVec 10) (lo : Byte) :
    (fnum.extractLsb' 8 2 ++ lo : BitVec 10) = (fnum &&& (0x300 : BitVec 10)) ||| lo.setWidth 10 := by
  have mask : (0x300 : BitVec 10) = BitVec.allOnes 2 ++ 0#8 := rfl
  have wide : lo.setWidth 10 = 0#2 ++ lo := BitVec.setWidth_eq_append (by decide)
  conv => rhs; rw [← fnum_parts fnum, mask, wide]
  rw [BitVec.and_append, BitVec.or_append, BitVec.and_allOnes, BitVec.and_zero, BitVec.or_zero, BitVec.zero_or]

/-- The f-number with its high two bits replaced. -/
theorem fnum_replace_high (fnum : BitVec 10) (hi : BitVec 2) :
    (hi ++ fnum.extractLsb' 0 8 : BitVec 10) = (fnum &&& (0x0FF : BitVec 10)) ||| (hi.setWidth 10 <<< 8) := by
  have mask : (0x0FF : BitVec 10) = 0#2 ++ BitVec.allOnes 8 := rfl
  have wide : hi.setWidth 10 <<< 8 = hi ++ 0#8 := by revert hi; decide
  conv => rhs; rw [← fnum_parts fnum, mask, wide]
  rw [BitVec.and_append, BitVec.or_append, BitVec.and_allOnes, BitVec.and_zero, BitVec.or_zero, BitVec.zero_or]

theorem storeFbcon_op (x : Variant) (new chb cha : Bool) (fb : BitVec 3) (con : Bool) (ch : Channel) (sl : Slot) :
    (storeFbcon x new chb cha fb con ch).op sl = ch.op sl := by
  unfold storeFbcon
  split <;> cases sl <;> rfl

end Sys2Proof.Machine
end

section
/-! The statements about the register writes (47_register_writes.md). -/

namespace Sys2Proof.Machine

/-- Settles O9: the decoded instruction is a register write, whose own run does what the data write does. -/
theorem dataWritePerformsTheDecodedRegisterWrite : Obligations.DataWritePerformsTheDecodedRegisterWrite := by
  intro s v live
  refine ⟨fun i decoded => ?_, fun e refused => exec_wrd_of_decodeR_error live refused⟩
  exact ⟨_, exec_regWrite live (isRegWrite_of_decodeR decoded), (RegFrame.regOp i s.begin).addr,
    exec_wrd_of_decodeR live decoded⟩

/-- Settles O10: a reserved location decodes to nothing, and `TEST` where there is no `WSE` stores nothing. -/
theorem reservedWritesChangeNothing : Obligations.ReservedWritesChangeNothing := by
  rintro s v live defaults bank (reserved | ⟨v2, addr⟩)
  · obtain ⟨e, refused⟩ := (reservedLocationsAreTheListedOnes s.cfg.variant _ _ bank).mp reserved
    refine exec_wrd_of_decodeR_error (e := e) live ?_
    rw [decodeR_addr, refused]
    rfl
  · have decoded : decodeR s.cfg.variant (s.addr ++ v) = .ok (Loc.test.instr v) := by
      rw [addr]
      exact decodeR_regWord (l := .test) (fun _ => rfl) v
    have noWse : s.cfg.hasWse = false := by
      obtain ⟨-, -, wse⟩ := (variantDefaults_iff s.cfg).mp defaults
      rw [wse, v2]
      rfl
    have write : regOp (Loc.test.instr v) s.begin = s.begin := by
      change writeTest _ s.begin = s.begin
      rw [writeTest, begin_cfg, noWse]
      rfl
    rw [exec_wrd_of_decodeR live decoded, write]
    rfl

/-- Settles O13: the two address writes leave the status byte, and a data write only clears bits of it. -/
theorem portWritesReturnTheInterruptLine : Obligations.PortWritesReturnTheInterruptLine := by
  rintro s v i live (rfl | rfl | rfl)
  · exact ⟨_, exec_live live nofun, rfl, fun changed => absurd rfl changed⟩
  · exact ⟨_, exec_live live nofun, rfl, fun changed => absurd rfl changed⟩
  · refine ⟨_, exec_live live nofun, rfl, fun changed => ?_⟩
    have changed : (regWrite s.addr v s.begin).irq ≠ s.begin.irq := changed
    have addr : s.addr = 0x004 := (regWrite_status s.addr v s.begin).resolve_left fun same =>
      changed (congrArg (·.getLsbD 7) same)
    obtain ⟨high, low⟩ := regWrite_irq_falls changed
    exact ⟨rfl, addr, high, low⟩

/-- Settles O17: one equation for each of the four parts of `TCTL`. -/
theorem timerControlClearsMasksAndStarts : Obligations.TimerControlClearsMasksAndStarts := by
  intro s rst mt1 mt2 st2 st1 live ok
  have cleared : ∀ a b, irqClear (clearMask a b) s.begin = _ := irqClear_of_statusOk (s := s.begin) ok
  have run : exec (.tctl rst mt1 mt2 st2 st1) s = .next (writeTctl rst mt1 mt2 st2 st1 s.begin) :=
    exec_regWrite live rfl
  rw [run]
  cases rst with
  | true =>
    rw [writeTctl_clear, cleared]
    simp [flagByte, clearEvents, State.irq]
  | false =>
    rw [writeTctl_store, writeSt1_eq, writeSt2_eq, cleared]
    simp only [Bool.false_or, true_and, begin_out, List.nil_append]
    rfl

/-- Settles O19: the six rhythm operators are distinct, so each is keyed once. -/
theorem rhythmWriteKeysTheSixOperators : Obligations.RhythmWriteKeysTheSixOperators := by
  intro s dam dvb rhy bd sd tom tc hh live
  have keys := writeRhythm_opsFrame dam dvb rhy bd sd tom tc hh s.begin
  refine ⟨_, exec_regWrite live rfl, keys.same, keys.own, writeRhythm_op_of_mem ?_, writeRhythm_op_of_mem ?_,
    writeRhythm_op_of_mem ?_, writeRhythm_op_of_mem ?_, writeRhythm_op_of_mem ?_, writeRhythm_op_of_mem ?_,
    fun o six seven eight => rhythmKeys_op_of_ne _ six seven eight⟩
  all_goals simp [rhythmTargets, setRhythm]

/-- Settles O20: each of the four writes is one update of the operator, and the derived values read its new fields. -/
theorem operatorWritesStoreTheirFields : Obligations.OperatorWritesStoreTheirFields := by
  intro s o live has
  refine ⟨fun am vib egt ksr' mult => ?_, fun ksl tl => ?_, fun ar dr => ?_, fun sl rr => ?_⟩
  · obtain ⟨run, only, out, stored⟩ := exec_updOp (i := .opchar o am vib egt ksr' mult)
      (f := fun p => { p with am := am, vib := vib, egt := egt, ksr := ksr', mult := mult }) live has rfl rfl
    have frame := OpsFrame.updOp s.begin o
      fun p => { p with am := am, vib := vib, egt := egt, ksr := ksr', mult := mult }
    refine ⟨_, run, only, out, stored, ?_, ?_⟩
    · exact (frame.incr_toNat o).trans (by rw [stored]; rfl)
    · exact (frame.ksr_eq o).trans (by rw [stored]; rfl)
  · exact ⟨_, exec_updOp (i := .oplevel o ksl tl) (f := fun p => { p with ksl := ksl, tl := tl }) live has rfl rfl⟩
  · exact ⟨_, exec_updOp (i := .opad o ar dr) (f := fun p => { p with ar := ar, dr := dr }) live has rfl rfl⟩
  · exact ⟨_, exec_updOp (i := .opsr o sl rr) (f := fun p => { p with sl := sl, rr := rr }) live has rfl rfl⟩

/-- Settles O21: V1 drops the write while `WSE = 0`; V2 has no such gate. -/
theorem waveformWritesFollowTheVariant : Obligations.WaveformWritesFollowTheVariant := by
  intro s o ws live defaults has
  obtain ⟨-, -, wse⟩ := (variantDefaults_iff s.cfg).mp defaults
  have accepted (ungated : (s.cfg.hasWse && !s.glob.wse) = false) := exec_updOp (i := .opwave o ws)
    (f := storeWave s.cfg.variant s.glob.new ws) live has rfl (if_neg (Bool.eq_false_iff.mp ungated))
  cases x : s.cfg.variant with
  | v1 =>
    rw [x] at wse accepted
    cases gate : s.glob.wse with
    | true =>
      simp only [← lowWave_eq_mod]
      exact ⟨_, accepted (by rw [gate]; exact Bool.and_false _)⟩
    | false =>
      have dropped : regOp (.opwave o ws) s.begin = s.begin := if_pos (by simp [wse, gate])
      exact ⟨s.begin, by rw [exec_regWrite live rfl, dropped], .begin o s, rfl, rfl⟩
  | v2 =>
    rw [x] at wse accepted
    simp only [← lowWave_eq_mod]
    exact ⟨_, accepted (by rw [wse]; rfl)⟩

/-- Settles O22: each of the two writes is one update of the channel's own fields. -/
theorem channelWritesStoreTheirFields : Obligations.ChannelWritesStoreTheirFields := by
  intro s c live has
  refine ⟨fun lo => ?_, fun chb cha fb con => ?_⟩
  · simp only [← fnum_replace_low]
    exact ⟨_, exec_updChan (i := .fnlo c lo)
      (f := fun ch => { ch with fnum := ch.fnum.extractLsb' 8 2 ++ lo }) live has rfl
      (fun _ sl => by cases sl <;> rfl) rfl⟩
  · obtain ⟨run, only, out, stored⟩ := exec_updChan (i := .fbcon c chb cha fb con) live has rfl
      (storeFbcon_op s.cfg.variant s.glob.new chb cha fb con) rfl
    refine ⟨_, run, only, out, stored.trans ?_⟩
    have enable : ∀ b : Bool, (if s.glob.new then b else true) = (b || !s.glob.new) := by
      cases s.glob.new <;> simp
    simp only [← enable]
    cases s.cfg.variant <;> rfl

/-- Settles O23: the pitch is stored in the channel, and its key bit reaches distinct operators. -/
theorem konblkWriteSetsPitchAndKeys : Obligations.KonblkWriteSetsPitchAndKeys := by
  intro s c kon block hi live has
  have keys := writeKonblk_opsFrame c kon block hi s.begin
  refine ⟨writeKonblk c kon block hi s.begin, exec_regWrite live rfl, ?_, keys.out.trans (updChan_out ..),
    fun d ne => ?_, ?_, fun o => writeKonblk_op (s := s.begin) has kon block hi o⟩
  · unfold SameExceptChans
    rw [keys.same, SameExceptChans.updChan s c (setPitch block hi)]
  · rw [keys.own, updChan_chan, if_neg fun e => ne e.1]
    rfl
  · rw [keys.own, updChan_chan_same (s := s.begin) has]
    exact congrArg (fun f => { (s.chan c).own with fnum := f, block := block }) (fnum_replace_high (s.chan c).fnum hi)

/-- Settles O24: what a key write stores and keys is the same from the state it leaves. -/
theorem repeatedKeyWritesChangeNothing : Obligations.RepeatedKeyWritesChangeNothing := by
  intro s t i key run
  have reg : isRegWrite i = true := isRegWrite_of_isKeyWrite key
  rcases exec_next run with ⟨rfl, -⟩ | ⟨-, live, rfl⟩
  · cases key
  rw [body_eq_regOp reg]
  have quiet : (regOp i s.begin).begin = regOp i s.begin := begin_of_out (regOp_out_of_isKeyWrite key s.begin)
  rw [exec_regWrite ((RegFrame.regOp i s.begin).live.trans live) reg, quiet, regOp_idem_of_isKeyWrite key]

/-- Settles O26, from the frame of a register write and what it can do to one operator. -/
theorem registerWritesLeaveTheDynamicsAlone : Obligations.RegisterWritesLeaveTheDynamicsAlone := by
  intro s i live reg
  have frame := RegFrame.regOp i s.begin
  have op := regOp_op i s.begin
  refine ⟨_, exec_regWrite live reg, frame.gens, frame.mixL, frame.mixR, fun c => ⟨frame.chanout c, frame.peak c⟩,
    fun o => ?_, fun noKeys o => ?_, ?_⟩
  · obtain ⟨vol, fb0, fb1⟩ := (op o).attenuation_and_feedback
    exact ⟨vol, fb0, fb1, (op o).accumulator⟩
  · have write := op o
    rw [noKeys] at write
    have dyn := write.dynamics_of_no_keys
    exact ⟨congrArg (·.key) dyn, congrArg (·.phase) dyn, congrArg (·.cnt) dyn⟩
  · exact (regOp_status i s.begin).imp_right fun tctl => ⟨tctl, regOp_status_and_self i s.begin⟩

/-- Settles O11: V1 drops the bank of a port-2 write, V2 the one of an inactive bank. -/
theorem addressWritesLatchTheAddress : Obligations.AddressWritesLatchTheAddress := by
  intro s v live
  refine ⟨exec_live live nofun, ?_⟩
  have latch : bankOneAddr s.cfg.variant s.glob.new v =
      if s.cfg.variant = .v2 ∧ (s.glob.new = true ∨ v = 0x05) then 1#1 ++ v else 0#1 ++ v := by
    cases s.cfg.variant <;> simp [bankOneAddr]
  rw [← latch]
  exact exec_live live nofun

/-- Settles O16, register by register; `WSE` and `CSM` exist where the variant says. -/
theorem globalWritesStoreTheirFields : Obligations.GlobalWritesStoreTheirFields := by
  intro s live defaults
  obtain ⟨-, csm, wse⟩ := (variantDefaults_iff s.cfg).mp defaults
  refine ⟨fun b => ?_, fun v => exec_regWrite live rfl, fun v => exec_regWrite live rfl, fun csm' nts => ?_,
    fun v2 ext => ?_, fun v2 new => ?_⟩
  · rw [exec_regWrite live rfl]
    change Host.Outcome.next (writeTest b s.begin) = _
    rw [writeTest, begin_cfg, wse]
    cases s.cfg.variant <;> rfl
  · rw [exec_regWrite live rfl]
    change Host.Outcome.next (writeMode csm' nts s.begin) = _
    rw [writeMode, begin_cfg, csm]
    cases s.cfg.variant <;> rfl
  · rw [exec_regWrite live rfl]
    change Host.Outcome.next (writeFourop ext s.begin) = _
    rw [writeFourop, begin_cfg, v2]
    rfl
  · rw [exec_regWrite live rfl]
    change Host.Outcome.next (writeNewmode new s.begin) = _
    rw [writeNewmode, begin_cfg, v2]
    rfl

end Sys2Proof.Machine
end

section
/-! SUPPORT. The envelope steps of a tick as the loop of 48_sample_tick.md R345, and their order with the phase step (R346): a
round of step 6 neither reads nor writes the accumulated time or an accumulator. -/

namespace Sys2Proof.Machine

/-! ### The loop of step 6 -/

/-- The state with the accumulated time of the envelope steps replaced. -/
def State.withEgTimer (s : State) (x : BitVec 32) : State := { s with gens := { s.gens with egTimer := x } }

/-- The number of envelope steps of a tick. -/
def egRounds (s : State) : Nat := (s.gens.egTimer.toNat + s.cfg.rates.egAdd.toNat) / s.cfg.rates.egOvf.toNat

/-- The accumulated time that they leave. -/
def egLeft (s : State) : BitVec 32 :=
  BitVec.ofNat 32 ((s.gens.egTimer.toNat + s.cfg.rates.egAdd.toNat) % s.cfg.rates.egOvf.toNat)

theorem egAdvance_eq (s : State) : egAdvance s = Nat.repeat egTick (egRounds s) (s.withEgTimer (egLeft s)) := rfl

theorem egTick_withEgTimer (s : State) (x : BitVec 32) : egTick (s.withEgTimer x) = (egTick s).withEgTimer x := rfl

theorem phaseAdvance_withEgTimer (s : State) (x : BitVec 32) :
    phaseAdvance (s.withEgTimer x) = (phaseAdvance s).withEgTimer x := rfl

/-- A law between one round and a step `g` holds between any number of rounds and `g`. -/
theorem repeat_commutes {α : Type} {f g : α → α} (h : ∀ a, g (f a) = f (g a)) (n : Nat) (a : α) :
    g (Nat.repeat f n a) = Nat.repeat f n (g a) := by
  induction n with
  | zero => rfl
  | succ n ih => exact (h _).trans (congrArg f ih)

/-- The loop makes as many rounds as `EG_OVF` fits into the time, and leaves the remainder. -/
theorem egLoop_eq_repeat {fuel timer : Nat} {s : State} (pos : 0 < s.cfg.rates.egOvf.toNat)
    (enough : timer / s.cfg.rates.egOvf.toNat ≤ fuel) :
    egLoop fuel timer s = Nat.repeat egTick (timer / s.cfg.rates.egOvf.toNat)
      (s.withEgTimer (BitVec.ofNat 32 (timer % s.cfg.rates.egOvf.toNat))) := by
  induction fuel generalizing timer s with
  | zero =>
    have none : timer / s.cfg.rates.egOvf.toNat = 0 := Nat.le_zero.mp enough
    rw [none, Nat.mod_eq_of_lt ((Nat.div_eq_zero_iff_lt pos).mp none)]
    rfl
  | succ fuel ih =>
    have cfg : (egTick s).cfg = s.cfg := by rw [egTick_frame]
    unfold egLoop
    split
    · next fits =>
      have quotient := Nat.div_eq_sub_div pos fits
      have remainder := Nat.mod_eq_sub_mod fits
      rw [ih (by rw [cfg]; exact pos) (by rw [cfg]; omega), cfg, quotient, remainder,
        ← egTick_withEgTimer, ← repeat_commutes (g := egTick) fun _ => rfl]
      rfl
    · next less =>
      have small := Nat.not_le.mp less
      rw [Nat.div_eq_of_lt small, Nat.mod_eq_of_lt small]
      rfl

/-! ### Envelope and phase steps -/

/-- An operator after the phase step. -/
theorem phaseAdvance_op (s : State) (o : OpRef) :
    (phaseAdvance s).op o = if s.hasChan o.ch = true then phaseStep s o else s.op o := by
  unfold State.op
  rw [phaseAdvance_chan]
  split
  · exact mapOps_op _ _ _
  · rfl

/-- Two channels with the same operators and the same fields outside them are the same. -/
theorem channel_ext_op {a b : Channel} (own : a.own = b.own) (op : ∀ sl, a.op sl = b.op sl) : a = b :=
  channel_ext_ops (op .one) (op .two) own

theorem phaseAdvance_own (s : State) (c : Chan) : ((phaseAdvance s).chan c).own = (s.chan c).own := by
  rw [phaseAdvance_chan]
  split <;> rfl

theorem egTick_own (s : State) (c : Chan) : ((egTick s).chan c).own = (s.chan c).own := by
  rw [egTick_chan]
  split <;> rfl

theorem egCounted_op (s : State) (o : OpRef) : (egCounted s).op o = s.op o := rfl

/-- An envelope step and a phase step of one operator write different fields, and neither reads what the other writes. -/
theorem phaseAdvance_egTick_op (s : State) (o : OpRef) :
    (phaseAdvance (egTick s)).op o = (egTick (phaseAdvance s)).op o := by
  have env := EnvFrame.phaseAdvance s
  have tune := TuneFrame.egTick s
  rw [phaseAdvance_op, egTick_op, egTick_op, tune.hasChan, env.hasChan]
  split
  · next has =>
    have moved : (egCounted (phaseAdvance s)).op o = phaseStep s o := by
      rw [egCounted_op, phaseAdvance_op, if_pos has]
    have stepped : (egTick s).op o = egStep (egCounted s) o := (egTick_op s o).trans (if_pos has)
    have kept := egStep_frame (egCounted s) o
    rw [env.egCounted.egStep, moved, phaseStep, phaseStep, tune.phaseIncrement, stepped]
    generalize egStep (egCounted s) o = q at kept
    rw [kept]
    rfl
  · next absent => rw [phaseAdvance_op, if_neg absent]

/-- A round of step 6 and step 7 commute. -/
theorem phaseAdvance_egTick (s : State) : phaseAdvance (egTick s) = egTick (phaseAdvance s) := by
  have chans : (phaseAdvance (egTick s)).chans = (egTick (phaseAdvance s)).chans := chans_ext fun c => by
    refine channel_ext_op ?_ fun sl => phaseAdvance_egTick_op s ⟨c, sl⟩
    rw [phaseAdvance_own, egTick_own, egTick_own, phaseAdvance_own]
  rw [phaseAdvance_frame, chans, egTick_frame, egTick_frame (phaseAdvance s), phaseAdvance_frame s]

end Sys2Proof.Machine
end

section
/-! The statements about steps 6 and 7 of a tick. -/

namespace Sys2Proof.Machine

/-- Settles O34: both are the quotient's number of rounds from the state that holds the remainder. -/
theorem envelopeStepsAreTheLoopOfTheRule : Obligations.EnvelopeStepsAreTheLoopOfTheRule :=
  fun s _ pos enough => (egAdvance_eq s).trans (egLoop_eq_repeat pos enough).symm

/-- Settles O37: step 7 commutes with each round of step 6, and neither reads nor writes the accumulated time. -/
theorem envelopeAndPhaseStepsCommute : Obligations.EnvelopeAndPhaseStepsCommute := fun s => by
  have rounds : egRounds (phaseAdvance s) = egRounds s := by rw [egRounds, phaseAdvance_frame, egRounds]
  have left : egLeft (phaseAdvance s) = egLeft s := by rw [egLeft, phaseAdvance_frame, egLeft]
  rw [egAdvance_eq, egAdvance_eq, repeat_commutes phaseAdvance_egTick, phaseAdvance_withEgTimer, rounds, left]

end Sys2Proof.Machine
end

section
/-! SUPPORT. Step 3 of a tick in any order of distinct channels (48_sample_tick.md R344): a bus ends as its writer's
contribution in the state before step 3 leaves it, and a feedback history moves on once. -/

namespace Sys2Proof.Machine

/-! ### What step 3 leaves of a channel -/

/-- Buses and feedback histories say all that a frame of contributions leaves open. -/
theorem BusFrame.chan_eq {s t u : State} (h : BusFrame s t) (k : BusFrame s u) {c : Chan} (out : bus t c = bus u c)
    (cells : fbCells t c = fbCells u c) : t.chan c = u.chan c := by
  obtain ⟨older, newer⟩ := Prod.mk.inj cells
  rw [h.chan c, k.chan c]
  change (t.chan c).chanout = (u.chan c).chanout at out
  change (t.chan c).slot1.fb0 = (u.chan c).slot1.fb0 at older
  change (t.chan c).slot1.fb1 = (u.chan c).slot1.fb1 at newer
  rw [out, older, newer]

theorem BusFrame.eq {s t u : State} (h : BusFrame s t) (k : BusFrame s u) (out : ∀ c, bus t c = bus u c)
    (cells : ∀ c, fbCells t c = fbCells u c) : t = u := by
  have chans : t.chans = u.chans := chans_ext fun c => h.chan_eq k (out c) (cells c)
  rw [h.same, k.same, chans]

/-! ### A contribution in another state of step 3 -/

/-- The output appended to a history is in the frame of the other channels' contributions. -/
theorem shiftedCells_congr {s t : State} (h : BusFrame s t) {c : Chan} (cells : fbCells t c = fbCells s c) :
    shiftedCells t c = shiftedCells s c := by
  have modulation : ∀ sum, fbMod t c sum = fbMod s c sum := fun sum => by rw [fbMod_eq_div, fbMod_eq_div, h.fb]
  rw [shiftedCells, slot1Out, h.opAt, h.index, cells, modulation]
  rfl

section
variable {s t : State} (h : BusFrame s t) {c : Chan} (out : bus t c = bus s c)
include h out

theorem bus_chan2Op_congr {w : Chan} (has : s.hasChan w = true) (cells : fbCells t w = fbCells s w) :
    bus (chan2Op t w) c = bus (chan2Op s w) c := by
  by_cases own : c = w
  · subst own
    rw [bus_chan2Op_same ((h.hasChan c).trans has), bus_chan2Op_same has, out, pairSum_congr h, h.cfg,
      shiftedCells_congr h cells, cells]
  · rw [bus_chan2Op_ne own, bus_chan2Op_ne own, out]

theorem bus_chan4Op_congr {w : Chan} (has : ∀ d, s.hasChan d = true) (cells : fbCells t w = fbCells s w) :
    bus (chan4Op t w) c = bus (chan4Op s w) c := by
  have still : ∀ d, t.hasChan d = true := fun d => (h.hasChan d).trans (has d)
  by_cases master : c = w
  · subst master
    rw [bus_chan4Op_master (still _), bus_chan4Op_master (has _), out, voiceSums_congr h, shiftedCells_congr h cells]
  · by_cases slave : c = pairHigh w
    · subst slave
      rw [bus_chan4Op_slave (still _), bus_chan4Op_slave (has _), out, voiceSums_congr h, shiftedCells_congr h cells]
    · rw [bus_chan4Op_ne master slave, bus_chan4Op_ne master slave, out]

theorem bus_rhythmStep_congr (cells : fbCells t 6 = fbCells s 6) : bus (rhythmStep t) c = bus (rhythmStep s) c := by
  have has : ∀ u : State, ∀ d : Chan, d.val < 9 → u.hasChan d = true := fun u _ => hasChan_of_lt u
  by_cases six : c = 6
  · subst six
    rw [bus_rhythmStep_six (has t 6 (by decide)), bus_rhythmStep_six (has s 6 (by decide)), out, bassOut_congr h, cells]
  · by_cases seven : c = 7
    · subst seven
      rw [bus_rhythmStep_seven (has t 7 (by decide)), bus_rhythmStep_seven (has s 7 (by decide)), out, hatOut_congr h,
        snareOut_congr h]
    · by_cases eight : c = 8
      · subst eight
        rw [bus_rhythmStep_eight (has t 8 (by decide)), bus_rhythmStep_eight (has s 8 (by decide)), out, tomOut_congr h,
          cymbalOut_congr h]
      · rw [bus_rhythmStep_ne six seven eight, bus_rhythmStep_ne six seven eight, out]

/-- What a channel adds to a bus does not depend on the contributions before it. -/
theorem bus_chanStep_congr {w : Chan} (has : s.hasChan w = true) (cells : fbCells t w = fbCells s w) :
    bus (chanStep t w) c = bus (chanStep s w) c := by
  unfold chanStep
  rw [h.role]
  split
  · split
    · next six => exact bus_rhythmStep_congr h out (six ▸ cells)
    · exact out
  · next r =>
    have v2 := ((isMaster_iff s w).mp ((role_master_iff s w).mp r)).1
    exact bus_chan4Op_congr h out (hasChan_v2 v2) cells
  · exact out
  · exact bus_chan2Op_congr h out has cells

end

/-! ### Any order -/

/-- A bus that a channel of the list writes ends as that channel's contribution alone leaves it. -/
theorem bus_foldl_of_writer {l : List Chan} (distinct : l.Nodup) {s : State} {c : Chan} (mem : busWriter s c ∈ l)
    (has : ∀ d ∈ l, s.hasChan d = true) : bus (l.foldl chanStep s) c = bus (chanStep s (busWriter s c)) c := by
  induction l generalizing s with
  | nil => cases mem
  | cons d l ih =>
    obtain ⟨fresh, distinct⟩ := List.nodup_cons.mp distinct
    have frame := BusFrame.chanStep s d
    have writer := frame.busWriter c
    rw [List.foldl_cons]
    by_cases own : busWriter s c = d
    · rw [bus_foldl_of_not_writer (by rw [writer, own]; exact fresh), own]
    · have here : fbCells (chanStep s d) (busWriter s c) = fbCells s (busWriter s c) := by
        rw [fbCells_chanStep (has d List.mem_cons_self), if_neg own]
      have later : ∀ e ∈ l, (chanStep s d).hasChan e = true := fun e mem =>
        (frame.hasChan e).trans (has e (List.mem_cons_of_mem d mem))
      rw [ih distinct (by rw [writer]; exact (List.mem_cons.mp mem).resolve_left own) later, writer,
        bus_chanStep_congr frame (bus_chanStep_of_not_writer own) (has _ mem) here]

/-- Two lists of the same distinct channels contribute the same. -/
theorem foldl_chanStep_congr {l k : List Chan} (distinct : l.Nodup) (distinct' : k.Nodup) (same : ∀ c, c ∈ l ↔ c ∈ k)
    {s : State} (has : ∀ d ∈ l, s.hasChan d = true) : l.foldl chanStep s = k.foldl chanStep s := by
  have has' : ∀ d ∈ k, s.hasChan d = true := fun d mem => has d ((same d).mpr mem)
  refine (BusFrame.foldl l s).eq (BusFrame.foldl k s) (fun c => ?_) fun c => ?_
  · by_cases mem : busWriter s c ∈ l
    · rw [bus_foldl_of_writer distinct mem has, bus_foldl_of_writer distinct' ((same _).mp mem) has']
    · rw [bus_foldl_of_not_writer mem, bus_foldl_of_not_writer (mt (same _).mpr mem)]
  · by_cases mem : c ∈ l
    · rw [fbCells_foldl_of_mem distinct mem has, fbCells_foldl_of_mem distinct' ((same c).mp mem) has']
    · rw [fbCells_foldl_of_not_mem mem has, fbCells_foldl_of_not_mem (mt (same c).mpr mem) has']

end Sys2Proof.Machine
end

section
/-! The statement about the order of the channels. -/

namespace Sys2Proof.Machine

/-- Settles O47: a permutation of the channels is a list of the same distinct channels. -/
theorem channelOrderCannotBeObserved : Obligations.ChannelOrderCannotBeObserved := fun s _ perm =>
  foldl_chanStep_congr (perm.symm.nodup (chanList_nodup s)) (chanList_nodup s) (fun _ => perm.mem_iff) fun _ mem =>
    mem_chanList.mp (perm.mem_iff.mp mem)

end Sys2Proof.Machine
end

section
/-! SUPPORT. What a tick leaves unchanged (48_sample_tick.md R341): the programmed fields of every channel and operator, and
the channels that the variant lacks. -/

namespace Sys2Proof.Machine

/-! ### Programmed fields -/

/-- What steps 2 to 6 keep of a channel contains its programmed fields. -/
theorem TuneFrame.programmed {s t : State} (h : TuneFrame s t) (c : Chan) :
    (t.chan c).programmed = (s.chan c).programmed := by
  rw [h.chan c]; rfl

theorem TuneFrame.op_programmed {s t : State} (h : TuneFrame s t) (o : OpRef) :
    (t.op o).programmed = (s.op o).programmed := by
  rw [h.op o]; rfl

theorem phaseAdvance_programmed (s : State) (c : Chan) :
    ((phaseAdvance s).chan c).programmed = (s.chan c).programmed := by
  rw [phaseAdvance_chan]
  split <;> rfl

theorem phaseAdvance_op_programmed (s : State) (o : OpRef) :
    ((phaseAdvance s).op o).programmed = (s.op o).programmed := by
  rw [phaseAdvance_op]
  split <;> rfl

theorem noiseAdvance_chan (s : State) (c : Chan) : (noiseAdvance s).chan c = s.chan c := rfl

theorem tickSteps_programmed (s : State) (c : Chan) : ((tickSteps s).chan c).programmed = (s.chan c).programmed := by
  rw [tickSteps, advanceSteps, noiseAdvance_chan, phaseAdvance_programmed]
  exact (TuneFrame.beforePhaseAdvance s).programmed c

theorem tickSteps_op_programmed (s : State) (o : OpRef) : ((tickSteps s).op o).programmed = (s.op o).programmed := by
  rw [tickSteps, advanceSteps, noiseAdvance_op, phaseAdvance_op_programmed]
  exact (TuneFrame.beforePhaseAdvance s).op_programmed o

/-! ### Channels that the variant lacks -/

/-- No channel that exists writes the bus of one that does not. -/
theorem busWriter_of_absent {s : State} {c : Chan} (absent : s.hasChan c = false) : busWriter s c = c := by
  have v1 := v1_of_absent absent
  have high : ¬ c.val < 9 := fun low => by rw [hasChan_of_lt s low] at absent; cases absent
  have slave : isSlave s c = false := Bool.eq_false_iff.mpr fun h => by
    obtain ⟨m, master, -⟩ := (isSlave_iff s c).mp h
    rw [((isMaster_iff s m).mp master).1] at v1
    cases v1
  rw [busWriter, if_neg (by omega), fsrc_of_not_slave slave]

/-- The configuration is the same, and so is every channel that it lacks. -/
structure AbsentFrame (s t : State) : Prop where
  cfg  : t.cfg = s.cfg
  chan : ∀ c, s.hasChan c = false → t.chan c = s.chan c

namespace AbsentFrame

variable {s t u : State}

theorem trans (h : AbsentFrame s t) (k : AbsentFrame t u) : AbsentFrame s u where
  cfg := k.cfg.trans h.cfg
  chan c absent := by
    have still : t.hasChan c = false := by unfold State.hasChan at *; rw [h.cfg]; exact absent
    rw [k.chan c still, h.chan c absent]

/-- A step that leaves the channels alone. -/
theorem of_chan (cfg : t.cfg = s.cfg) (chan : ∀ c, t.chan c = s.chan c) : AbsentFrame s t := ⟨cfg, fun c _ => chan c⟩

theorem mapChans (s : State) (f : Chan → Channel → Channel) : AbsentFrame s (s.mapChans f) where
  cfg := mapChans_cfg s f
  chan c absent := by rw [mapChans_chan, absent]; rfl

theorem channelsStep (s : State) : AbsentFrame s (channelsStep s) where
  cfg := (BusFrame.channelsStep s).cfg
  chan c absent := by
    have unlisted : c ∉ s.chanList := by rw [mem_chanList, absent]; decide
    refine (BusFrame.channelsStep s).chan_eq (BusFrame.refl s) ?_ ?_
    · exact bus_foldl_of_not_writer (by rw [busWriter_of_absent absent]; exact unlisted)
    · exact fbCells_foldl_of_not_mem unlisted fun _ => mem_chanList.mp

theorem egTick (s : State) : AbsentFrame s (egTick s) where
  cfg := by rw [egTick_frame]
  chan c absent := by rw [egTick_chan, absent]; rfl

theorem egAdvance (s : State) : AbsentFrame s (egAdvance s) :=
  repeat_keeps (P := AbsentFrame s) (fun t h => h.trans (egTick t)) _ (of_chan rfl fun _ => rfl)

theorem tickSteps (s : State) : AbsentFrame s (tickSteps s) := by
  have lfo : AbsentFrame s (lfoAdvance s) := of_chan rfl fun _ => rfl
  have mix : ∀ t, AbsentFrame t (mixStep t) := fun t => of_chan (by rw [mixStep_frame]) (mixStep_chan t)
  have noise : ∀ t, AbsentFrame t (noiseAdvance t) := fun _ => of_chan rfl fun _ => rfl
  have sample : AbsentFrame s (sampleSteps s) := lfo.trans ((mapChans _ _).trans ((channelsStep _).trans (mix _)))
  exact sample.trans ((mapChans _ _).trans ((egAdvance _).trans ((mapChans _ _).trans (noise _))))

end AbsentFrame

end Sys2Proof.Machine
end

section
/-! SUPPORT. The peaks (48_sample_tick.md R348, R349): step 5 alone writes them. -/

namespace Sys2Proof.Machine

/-- The peak of a channel. -/
def peak (s : State) (c : Chan) : BitVec 32 := (s.chan c).peak

theorem peak_egTick (s : State) (c : Chan) : peak (egTick s) c = peak s c := by
  rw [peak, egTick_chan]
  split <;> rfl

theorem peak_egAdvance (s : State) (c : Chan) : peak (egAdvance s) c = peak s c :=
  repeat_keeps (P := fun t => peak t c = peak s c) (fun t h => (peak_egTick t c).trans h) _ rfl

theorem peak_phaseAdvance (s : State) (c : Chan) : peak (phaseAdvance s) c = peak s c := by
  rw [peak, phaseAdvance_chan]
  split <;> rfl

theorem peak_noiseAdvance (s : State) (c : Chan) : peak (noiseAdvance s) c = peak s c := rfl

theorem BusFrame.peak {s t : State} (h : BusFrame s t) (c : Chan) : peak t c = peak s c := by
  unfold Machine.peak
  rw [h.chan c]

theorem peak_sampleSteps (s : State) (c : Chan) : peak (sampleSteps s) c = peak s c := by
  have frame := (BusFrame.clearOut (lfoAdvance s)).trans (BusFrame.channelsStep _)
  rw [sampleSteps, peak, mixStep_chan]
  exact frame.peak c

/-- The magnitude of a bus fits a peak register. -/
theorem natAbs_bus_lt (x : BitVec 32) : x.toInt.natAbs < 2 ^ 32 := by
  have := x.le_toInt
  have := x.toInt_lt
  omega

theorem peakStep_hasChan (s : State) (c : Chan) : (peakStep s).hasChan c = s.hasChan c := by
  unfold peakStep
  exact mapChans_hasChan _ _ _

theorem peak_peakStep {s : State} {c : Chan} (has : s.hasChan c = true) :
    (peak (peakStep s) c).toNat = max (peak s c).toNat (bus s c).toInt.natAbs := by
  have fits := natAbs_bus_lt (bus s c)
  have old := (peak s c).isLt
  rw [peak, peakStep_chan, if_pos has]
  exact Nat.mod_eq_of_lt (Nat.max_lt.mpr ⟨old, fits⟩)

/-- The peak after a tick is that of step 5, at the buses that the tick leaves. -/
theorem peak_tickSteps {s : State} {c : Chan} (has : s.hasChan c = true) :
    (peak (tickSteps s) c).toNat = max (peak s c).toNat (bus (tickSteps s) c).toInt.natAbs := by
  have still : (sampleSteps s).hasChan c = true := by
    rw [← peakStep_hasChan, (EnvFrame.beforeEgAdvance s).hasChan, has]
  rw [tickSteps, (SampleFrame.advanceSteps _).bus, advanceSteps, peak_noiseAdvance, peak_phaseAdvance, peak_egAdvance,
    peak_peakStep still, peak_sampleSteps]

theorem clearPeaks_chan (s : State) (c : Chan) :
    (clearPeaks s).chan c = if s.hasChan c = true then { s.chan c with peak := 0 } else s.chan c := by
  unfold clearPeaks
  exact mapChans_chan _ _ _

end Sys2Proof.Machine
end

section
/-! The statements about what a tick changes and about the peaks. -/

namespace Sys2Proof.Machine

/-- Settles O31, from the frames of the eight steps. -/
theorem tickChangesOnlyTheDynamics : Obligations.TickChangesOnlyTheDynamics := fun s live =>
  ⟨tickSteps s.begin, exec_live live nofun, (TickFrame.tickSteps s.begin).same, tickSteps_programmed s.begin,
    tickSteps_op_programmed s.begin, (AbsentFrame.tickSteps s.begin).chan⟩

/-- Settles O52: step 5 meters the buses that step 3 leaves, and no other step touches a peak. -/
theorem peaksMeterTheBusesUntilCleared : Obligations.PeaksMeterTheBusesUntilCleared := fun s live =>
  ⟨⟨tickSteps s.begin, exec_live live nofun, fun _ has => peak_tickSteps (s := s.begin) has⟩,
    clearPeaks s.begin, exec_live live nofun, mapChans_frame _ _, rfl, clearPeaks_chan s.begin⟩

end Sys2Proof.Machine
end

section
/-! SUPPORT. Silence (48_sample_tick.md R351): in a silent state no channel contributes anything, so step 3 changes nothing;
no step of a tick and no command without key events ends it. -/

namespace Sys2Proof.Machine

/-! ### Step 3 -/

/-- The operator is off at full attenuation, with an empty feedback history. -/
def Op.Silent (p : Op) : Prop := p.phase = .off ∧ p.vol = 511 ∧ p.fb0 = 0 ∧ p.fb1 = 0

theorem Op.Silent.clear_history {p : Op} (h : p.Silent) : { p with fb0 := 0, fb1 := 0 } = p := by
  obtain ⟨-, -, older, newer⟩ := h
  cases p
  cases older
  cases newer
  rfl

theorem addOut_zero (s : State) (c : Chan) : addOut s c 0 = s :=
  updChan_of_fixed fun _ => by
    have zero : BitVec.ofInt 32 0 = 0#32 := rfl
    rw [zero, BitVec.add_zero]

section
variable {s : State} (h : SilentState s)
include h

/-- Full attenuation alone reaches the quiet threshold, which is 384 or 416. -/
theorem envQuiet_le_of_silent (o : OpRef) : envQuiet s.cfg.variant ≤ env s o := by
  have threshold : envQuiet s.cfg.variant ≤ 511 := by cases s.cfg.variant <;> decide
  have vol : (s.op o).vol.toNat = 511 := congrArg BitVec.toNat (h o).2.1
  unfold env
  omega

theorem opAt_of_silent (o : OpRef) (x : Int) : opAt s o x = 0 := by
  rw [opAt_eq, if_neg (Nat.not_lt.mpr (envQuiet_le_of_silent h o))]

theorem slotN_of_silent (o : OpRef) (pm : Int) : slotN s o pm = 0 := opAt_of_silent h o _

theorem fbCells_of_silent (c : Chan) : fbCells s c = (0, 0) :=
  let ⟨_, _, older, newer⟩ := h ⟨c, .one⟩
  Prod.ext older newer

theorem shiftedCells_of_silent (c : Chan) : shiftedCells s c = (0, 0) := by
  rw [shiftedCells, slot1Out, opAt_of_silent h, fbCells_of_silent h]
  rfl

/-- Slot 1 with feedback puts a 0 behind the zeros of its history. -/
theorem slot1_of_silent (c : Chan) : slot1 s c = (s, 0, 0) := by
  have same : (slot1 s c).1 = s := by
    rw [slot1_state, shiftedCells_of_silent h]
    exact updOp_of_fixed fun _ => Op.Silent.clear_history (h ⟨c, .one⟩)
  rw [slot1_eq, same, shiftedCells_of_silent h, fbCells_of_silent h]
  rfl

theorem chan2Op_of_silent (c : Chan) : chan2Op s c = s := by
  simp only [chan2Op, slot1_of_silent h, slotN_of_silent h, addOut_zero, ite_self]

theorem chan4Op_of_silent (m : Chan) : chan4Op s m = s := by
  unfold chan4Op
  rw [slot1_of_silent h]
  dsimp only
  split <;> simp only [topology0, topology1, topology2, topology3, slotN_of_silent h, addOut_zero]

theorem rhythmStep_of_silent : rhythmStep s = s := by
  simp only [rhythmStep, bassDrum, highHat, snareDrum, tomTom, topCymbal, slot1_of_silent h, slotN_of_silent h,
    opAt_of_silent h, Int.mul_zero, addOut_zero]

theorem chanStep_of_silent (c : Chan) : chanStep s c = s := by
  unfold chanStep
  split
  · split
    · exact rhythmStep_of_silent h
    · rfl
  · exact chan4Op_of_silent h c
  · rfl
  · exact chan2Op_of_silent h c

theorem channelsStep_of_silent : channelsStep s = s := by
  have all : ∀ l : List Chan, l.foldl chanStep s = s := fun l => by
    induction l with
    | nil => rfl
    | cons c l ih => rw [List.foldl_cons, chanStep_of_silent h, ih]
  exact all _

end

/-! ### The other steps of a tick -/

theorem SilentState.of_op {s t : State} (h : SilentState s) (op : ∀ o, t.op o = s.op o) : SilentState t := fun o => by
  rw [op]; exact h o

theorem SilentState.clearOut {s : State} (h : SilentState s) : SilentState (clearOut s) := h.of_op fun o => by
  unfold State.op
  rw [clearOut_chan]
  split
  · cases o.slot <;> rfl
  · rfl

theorem SilentState.mixStep {s : State} (h : SilentState s) : SilentState (mixStep s) := h.of_op fun o => by
  unfold State.op
  rw [mixStep_chan]

theorem SilentState.peakStep {s : State} (h : SilentState s) : SilentState (peakStep s) := h.of_op fun o => by
  unfold State.op
  rw [peakStep_chan]
  split
  · cases o.slot <;> rfl
  · rfl

theorem SilentState.egTick {s : State} (h : SilentState s) : SilentState (egTick s) := h.of_op fun o => by
  rw [egTick_op, egStep_of_off (s := egCounted s) (h o).1]
  exact ite_self _

theorem SilentState.egAdvance {s : State} (h : SilentState s) : SilentState (egAdvance s) :=
  repeat_keeps (P := SilentState) (fun _ => SilentState.egTick) _ h

theorem SilentState.phaseAdvance {s : State} (h : SilentState s) : SilentState (phaseAdvance s) := fun o => by
  rw [phaseAdvance_op]
  split <;> exact h o

theorem SilentState.advanceSteps {s : State} (h : SilentState s) : SilentState (advanceSteps s) :=
  (h.peakStep.egAdvance.phaseAdvance).of_op (noiseAdvance_op _)

/-- The sample of a silent tick is the mix of cleared buses. -/
theorem sampleSteps_of_silent {s : State} (h : SilentState s) :
    sampleSteps s = mixStep (clearOut (lfoAdvance s)) := by
  have lfo : SilentState (lfoAdvance s) := h
  rw [sampleSteps, channelsStep_of_silent lfo.clearOut]

theorem SilentState.tickSteps {s : State} (h : SilentState s) : SilentState (tickSteps s) := by
  have lfo : SilentState (lfoAdvance s) := h
  rw [Machine.tickSteps, sampleSteps_of_silent h]
  exact lfo.clearOut.mixStep.advanceSteps

/-! ### The outputs of a silent tick -/

/-- Cleared buses sum to 0. -/
theorem busSum_of_clear {s : State} (clear : ∀ c, s.hasChan c = true → bus s c = 0) (on : Channel → Bool) :
    busSum s on = 0 := by
  have zeros : s.chanList.map (fun c => if on (s.chan c) then (s.chan c).chanout.toInt else 0) =
      s.chanList.map fun _ => 0 := List.map_congr_left fun c listed => by
    have zero : (s.chan c).chanout.toInt = 0 := congrArg BitVec.toInt (clear c (mem_chanList.mp listed))
    rw [zero, ite_self]
  have sum : ∀ l : List Chan, (l.map fun _ => (0 : Int)).sum = 0 := fun l => by
    induction l with
    | nil => rfl
    | cons c l ih => rw [List.map_cons, List.sum_cons, ih, Int.zero_add]
  rw [busSum, zeros, sum]

theorem mixStep_of_clear {s : State} (clear : ∀ c, s.hasChan c = true → bus s c = 0) :
    (mixStep s).mixL = 0 ∧ (mixStep s).mixR = 0 := by
  unfold mixStep
  simp only [busSum_of_clear clear]
  cases s.cfg.variant <;> exact ⟨rfl, rfl⟩

theorem bus_tickSteps_of_silent {s : State} (h : SilentState s) {c : Chan} (has : s.hasChan c = true) :
    bus (tickSteps s) c = 0 := by
  have lfo : SilentState (lfoAdvance s) := h
  rw [bus_tickSteps, channelsStep_of_silent lfo.clearOut]
  exact bus_clearOut has

theorem mix_tickSteps_of_silent {s : State} (h : SilentState s) : (tickSteps s).mixL = 0 ∧ (tickSteps s).mixR = 0 := by
  have after := SampleFrame.advanceSteps (sampleSteps s)
  have clear : ∀ c, (clearOut (lfoAdvance s)).hasChan c = true → bus (clearOut (lfoAdvance s)) c = 0 := fun c has =>
    bus_clearOut (((BusFrame.clearOut (lfoAdvance s)).hasChan c).symm.trans has)
  rw [tickSteps, after.mixL, after.mixR, sampleSteps_of_silent h]
  exact mixStep_of_clear clear

/-! ### The other commands -/

theorem Op.Silent.of_dynamics {p q : Op} (h : p.Silent) (dyn : q.dynamics = p.dynamics) : q.Silent := by
  obtain ⟨phase, vol, fb0, fb1⟩ := h
  exact ⟨(congrArg Op.phase dyn).trans phase, (congrArg Op.vol dyn).trans vol, (congrArg Op.fb0 dyn).trans fb0,
    (congrArg Op.fb1 dyn).trans fb1⟩

theorem SilentState.afterReset (s : State) : SilentState (afterReset s) := fun o => by
  have op : (Machine.afterReset s).op o = Op.reset := resetOf_op s.cfg o
  rw [op]
  exact ⟨rfl, rfl, rfl, rfl⟩

/-- A command that keys nothing keeps silence. -/
theorem SilentState.body {s : State} (h : SilentState s) (i : Instr) :
    SilentState (body i s) ∨ isKeyWrite i = true ∨ i = .texp0 ∨ ∃ v, i = .wrd v := by
  by_cases reg : isRegWrite i = true
  · by_cases key : isKeyWrite i = true
    · exact .inr (.inl key)
    · refine .inl fun o => Op.Silent.of_dynamics (h o) ?_
      have write := regOp_op i s o
      rw [Bool.eq_false_iff.mpr key] at write
      rw [body_eq_regOp reg]
      exact write.dynamics_of_no_keys
  cases i with
  | wra | wra2 | rd | reset => exact .inl h
  | wrd v => exact .inr (.inr (.inr ⟨v, rfl⟩))
  | texp0 => exact .inr (.inr (.inl rfl))
  | texp1 =>
    refine .inl (h.of_op fun o => ?_)
    change (irqSet flagTimer2 s).op o = s.op o
    rw [irqSet_frame]
    rfl
  | tick => exact .inl h.tickSteps
  | peakclr => exact .inl (h.of_op (clearPeaks_op s))
  | _ => exact absurd rfl reg

/-! ### A run of ticks -/

/-- Silent, with every output at 0. -/
structure Quiet (s : State) : Prop where
  silent : SilentState s
  mixL   : s.mixL = 0
  mixR   : s.mixR = 0
  bus    : ∀ c, bus s c = 0

theorem Quiet.resetOf (cfg : Config) : Quiet (State.resetOf cfg) where
  silent o := by rw [resetOf_op]; exact ⟨rfl, rfl, rfl, rfl⟩
  mixL := rfl
  mixR := rfl
  bus c := by rw [Machine.bus, resetOf_chan]; rfl

theorem Quiet.tickSteps {s : State} (h : Quiet s) : Quiet (tickSteps s) where
  silent := h.silent.tickSteps
  mixL := (mix_tickSteps_of_silent h.silent).1
  mixR := (mix_tickSteps_of_silent h.silent).2
  bus c := by
    by_cases has : s.hasChan c = true
    · exact bus_tickSteps_of_silent h.silent has
    · rw [Machine.bus, (AbsentFrame.tickSteps s).chan c (Bool.eq_false_iff.mpr has)]
      exact h.bus c

theorem Quiet.with_input {s : State} (h : Quiet s) (input : List Command) : Quiet { s with input := input } :=
  ⟨h.silent, h.mixL, h.mixR, h.bus⟩

/-- A step that takes a `TICK`. -/
theorem step_tick {s : State} {rest : List Command} (live : s.live = true) (h : s.input = .event .tick :: rest) :
    step s = .next (tickSteps ({ s with input := rest }).begin) := by
  rw [step_cons h]
  exact exec_live (s := { s with input := rest }) (i := .tick) live nofun

theorem run_succ_of_step {M : Host.Core} {n : Nat} {s t : M.State} (h : M.step s = .next t) :
    M.run (n + 1) s = M.run n t := by
  rw [Host.Core.run, h]

theorem run_ticks_quiet {n : Nat} {s : State} (live : s.live = true) (input : s.input = traceTicks n) (h : Quiet s) :
    ∃ t : State, core.run n s = .next t ∧ t.input = [] ∧ Quiet t := by
  induction n generalizing s with
  | zero => exact ⟨s, rfl, input, h⟩
  | succ n ih =>
    have taken := step_tick live input
    have frame := TickFrame.tickSteps ({ s with input := traceTicks n }).begin
    have rest : (tickSteps ({ s with input := traceTicks n }).begin).input = traceTicks n := by rw [frame.same]; rfl
    have begun : Quiet ({ s with input := traceTicks n }).begin := ⟨h.silent, h.mixL, h.mixR, h.bus⟩
    obtain ⟨t, run, last⟩ := ih (frame.live.trans live) rest begun.tickSteps
    exact ⟨t, (run_succ_of_step (M := core) taken).trans run, last⟩

end Sys2Proof.Machine
end

section
/-! The statements about silence. -/

namespace Sys2Proof.Machine

/-- Settles O58, by induction on the ticks still waiting. -/
theorem silenceAfterReset : Obligations.SilenceAfterReset := fun cfg n =>
  let ⟨t, run, input, quiet⟩ := run_ticks_quiet (n := n) rfl rfl ((Quiet.resetOf cfg).with_input (traceTicks n))
  ⟨t, run, input, quiet.silent, quiet.mixL, quiet.mixR, quiet.bus⟩

/-- Settles O59: no command without key events moves an operator out of silence, and a silent tick contributes nothing to
the buses it has cleared. -/
theorem silenceLastsUntilAKeyEvent : Obligations.SilenceLastsUntilAKeyEvent := by
  intro s t i silent e
  have begun : SilentState s.begin := silent
  rcases exec_next e with ⟨rfl, rfl⟩ | ⟨-, -, rfl⟩
  · exact ⟨.inl (.afterReset s), nofun⟩
  · refine ⟨begun.body i, ?_⟩
    rintro rfl
    obtain ⟨left, right⟩ := mix_tickSteps_of_silent begun
    exact ⟨left, right, fun c has => bus_tickSteps_of_silent (s := s.begin) begun has⟩

end Sys2Proof.Machine
end

section
/-! SUPPORT. States that sound the same (48_sample_tick.md R340, R350, 60_exceptions.md R372): they differ at most in peaks and
in what belongs to the timers. Each step of a tick reads neither, so it keeps the relation. -/

namespace Sys2Proof.Machine

/-! ### The relation -/

/-- The global fields without those of the timers. -/
def Globals.withoutTimers (g : Globals) : Globals :=
  { g with t1 := 0, t2 := 0, st1 := false, st2 := false, mt1 := false, mt2 := false }

/-- The channel without its peak. -/
def Channel.withoutPeak (ch : Channel) : Channel := { ch with peak := 0 }

/-- The state without the global fields of the timers. -/
def State.untimed (s : State) : State := { s with glob := s.glob.withoutTimers }

theorem untimed_chan (s : State) (c : Chan) : s.untimed.chan c = s.chan c := rfl

theorem untimed_op (s : State) (o : OpRef) : s.untimed.op o = s.op o := rfl

/-- What a tick computes from is the same, and so are the outputs of the last one: with `peaks` the peaks too, without it all
but the peaks. -/
structure SameSound (peaks : Prop) (s t : State) : Prop where
  cfg  : t.cfg = s.cfg
  gens : t.gens = s.gens
  glob : t.glob.withoutTimers = s.glob.withoutTimers
  mixL : t.mixL = s.mixL
  mixR : t.mixR = s.mixR
  chan : ∀ c, (t.chan c).withoutPeak = (s.chan c).withoutPeak
  peak : peaks → ∀ c, peak t c = peak s c

theorem withoutPeaks_chan (s : State) (c : Chan) : s.withoutPeaks.chan c = (s.chan c).withoutPeak := by
  simp only [chan_eq_getElem, State.withoutPeaks, Vector.getElem_map]
  rfl

theorem SameSound.of_withoutPeaks (s : State) : SameSound False s s.withoutPeaks :=
  ⟨rfl, rfl, rfl, rfl, rfl, fun c => by rw [withoutPeaks_chan]; rfl, False.elim⟩

theorem SameSound.of_withoutTimers (peaks : Prop) (s : State) : SameSound peaks s s.withoutTimers :=
  ⟨rfl, rfl, rfl, rfl, rfl, fun _ => rfl, fun _ _ => rfl⟩

/-- A round of step 6 as one step of every envelope at the advanced counter. -/
theorem egTick_eq (s : State) :
    egTick s = (egCounted s).mapChans fun c ch => ch.mapOps fun sl _ => egStep (egCounted s) ⟨c, sl⟩ := rfl

namespace SameSound

variable {peaks : Prop} {s t : State}

/-! ### What the steps of a tick read -/

section
variable (h : SameSound peaks s t)
include h

theorem hasChan (c : Chan) : t.hasChan c = s.hasChan c := by unfold State.hasChan; rw [h.cfg]

theorem chanList : t.chanList = s.chanList := by unfold State.chanList; simp only [h.hasChan]

/-- What does not look at the peak of a channel reads the same. -/
theorem reads {α : Type} (read : Channel → α) (blind : ∀ ch, read ch.withoutPeak = read ch) (c : Chan) :
    read (t.chan c) = read (s.chan c) := by
  rw [← blind, h.chan, blind]

theorem globReads {α : Type} (read : Globals → α) (blind : ∀ g, read g.withoutTimers = read g) :
    read t.glob = read s.glob := by
  rw [← blind, h.glob, blind]

theorem op (o : OpRef) : t.op o = s.op o := h.reads (·.op o.slot) (fun _ => by cases o.slot <;> rfl) o.ch

theorem bus (c : Chan) : bus t c = bus s c := h.reads (·.chanout) (fun _ => rfl) c

theorem con (c : Chan) : (t.chan c).con = (s.chan c).con := h.reads (·.con) (fun _ => rfl) c

theorem fb (c : Chan) : (t.chan c).fb = (s.chan c).fb := h.reads (·.fb) (fun _ => rfl) c

/-- With the peaks the channels are the same altogether. -/
theorem chan_of_peaks (p : peaks) (c : Chan) : t.chan c = s.chan c := by
  have sound := h.chan c
  have same : (t.chan c).peak = (s.chan c).peak := h.peak p c
  generalize t.chan c = a, s.chan c = b at sound same
  cases a
  cases b
  cases same
  cases sound
  rfl

/-- Without the fields of the timers, which no step reads, the two are in the frame of the phase step. -/
theorem tuneFrame : TuneFrame s.untimed t.untimed where
  cfg := h.cfg
  glob := h.glob
  lfoPmCnt := congrArg Gens.lfoPmCnt h.gens
  chan c := by
    have sound := h.chan c
    rw [untimed_chan, untimed_chan]
    generalize t.chan c = a, s.chan c = b at sound
    cases a
    cases b
    cases sound
    rfl
  op o := by rw [untimed_op, untimed_op, h.op]

/-- And in the frame of an envelope step. -/
theorem envFrame : EnvFrame s.untimed t.untimed where
  cfg := h.cfg
  glob := h.glob
  egCnt := congrArg Gens.egCnt h.gens
  egTimer := congrArg Gens.egTimer h.gens
  code := h.reads (fun ch => ch.block ++ ch.fnum) fun _ => rfl
  op o := by rw [untimed_op, untimed_op, h.op]

theorem blockFnum (c : Chan) : blockFnum t c = blockFnum s c := h.tuneFrame.blockFnum c

theorem phaseStep (o : OpRef) : phaseStep t o = phaseStep s o := by
  have increment : phaseIncrement t o = phaseIncrement s o := h.tuneFrame.phaseIncrement o
  rw [Machine.phaseStep, increment, h.op]
  rfl

theorem egStep (o : OpRef) : egStep t o = egStep s o := by
  have step : Machine.egStep t o =
      { Machine.egStep s o with cnt := (t.op o).cnt, fb0 := (t.op o).fb0, fb1 := (t.op o).fb1 } := h.envFrame.egStep o
  have kept := egStep_frame s o
  rw [step, h.op]
  generalize Machine.egStep s o = q, s.op o = p at kept
  rw [kept]

theorem role (c : Chan) : role t c = role s c := by
  have master : isMaster t c = isMaster s c :=
    isMaster_congr (s := s.untimed) (t := t.untimed) h.cfg h.glob c
  have slave : isSlave t c = isSlave s c :=
    isSlave_congr (s := s.untimed) (t := t.untimed) h.cfg h.glob c
  have rhy : t.glob.rhy = s.glob.rhy := h.globReads (·.rhy) fun _ => rfl
  unfold Machine.role
  rw [master, slave, rhy]

theorem env (o : OpRef) : env t o = env s o := by
  have dam : t.glob.dam = s.glob.dam := h.globReads (·.dam) fun _ => rfl
  unfold Machine.env tll lfoAm
  rw [h.op, h.blockFnum, h.cfg, h.gens, dam]

theorem opAt (o : OpRef) (x : Int) : opAt t o x = opAt s o x := by
  rw [opAt_eq, opAt_eq, h.env, h.cfg, h.op]

theorem slotN (o : OpRef) (pm : Int) : slotN t o pm = slotN s o pm := by
  rw [Machine.slotN, h.opAt, h.op]
  rfl

theorem fbCells (c : Chan) : fbCells t c = fbCells s c := by
  rw [Machine.fbCells, h.op]
  rfl

theorem shiftedCells (c : Chan) : shiftedCells t c = shiftedCells s c := by
  have modulation : ∀ sum, fbMod t c sum = fbMod s c sum := fun sum => by rw [fbMod_eq_div, fbMod_eq_div, h.fb]
  rw [Machine.shiftedCells, slot1Out, h.opAt, h.op, h.fbCells, modulation]
  rfl

/-! ### Updates that both states undergo -/

theorem of_gens {g g' : Gens} (same : g' = g) : SameSound peaks { s with gens := g } { t with gens := g' } :=
  ⟨h.cfg, same, h.glob, h.mixL, h.mixR, h.chan, h.peak⟩

theorem of_mix {l l' r r' : BitVec 32} (left : l' = l) (right : r' = r) :
    SameSound peaks { s with mixL := l, mixR := r } { t with mixL := l', mixR := r' } :=
  ⟨h.cfg, h.gens, h.glob, left, right, h.chan, h.peak⟩

theorem updChan (c : Chan) {f : Channel → Channel}
    (sound : ∀ ch, (f ch.withoutPeak).withoutPeak = (f ch).withoutPeak) :
    SameSound peaks (s.updChan c f) (t.updChan c f) where
  cfg := by rw [updChan_cfg, updChan_cfg, h.cfg]
  gens := by rw [updChan_gens, updChan_gens, h.gens]
  glob := by rw [updChan_glob, updChan_glob, h.glob]
  mixL := by rw [updChan_mixL, updChan_mixL, h.mixL]
  mixR := by rw [updChan_mixR, updChan_mixR, h.mixR]
  chan d := by
    rw [updChan_chan, updChan_chan, h.hasChan]
    split
    · rw [← sound, h.chan, sound]
    · exact h.chan d
  peak p d := by
    rw [Machine.peak, Machine.peak, updChan_chan, updChan_chan, h.hasChan, h.chan_of_peaks p, h.chan_of_peaks p]

theorem mapChans {f : Chan → Channel → Channel}
    (sound : ∀ c ch, (f c ch.withoutPeak).withoutPeak = (f c ch).withoutPeak) :
    SameSound peaks (s.mapChans f) (t.mapChans f) where
  cfg := by rw [mapChans_cfg, mapChans_cfg, h.cfg]
  gens := by rw [mapChans_gens, mapChans_gens, h.gens]
  glob := by rw [mapChans_glob, mapChans_glob, h.glob]
  mixL := by rw [mapChans_mixL, mapChans_mixL, h.mixL]
  mixR := by rw [mapChans_mixR, mapChans_mixR, h.mixR]
  chan c := by
    rw [mapChans_chan, mapChans_chan, h.hasChan]
    split
    · rw [← sound, h.chan, sound]
    · exact h.chan c
  peak p c := by
    rw [Machine.peak, Machine.peak, mapChans_chan, mapChans_chan, h.hasChan, h.chan_of_peaks p]

/-! ### The contribution of a channel -/

theorem addOut (c : Chan) (x : Int) : SameSound peaks (addOut s c x) (addOut t c x) := h.updChan c fun _ => rfl

theorem slot1 (c : Chan) : SameSound peaks (slot1 s c).1 (slot1 t c).1 := by
  rw [slot1_state, slot1_state, h.shiftedCells]
  exact h.updChan c fun _ => rfl

theorem chan2Op (c : Chan) : SameSound peaks (chan2Op s c) (chan2Op t c) := by
  have hist := h.slot1 c
  unfold Machine.chan2Op
  rw [slot1_eq s, slot1_eq t, h.cfg, h.con, h.shiftedCells, h.fbCells]
  dsimp only
  rw [hist.slotN, hist.slotN]
  split
  · exact (hist.addOut _ _).addOut _ _
  · exact hist.addOut _ _

theorem chan4Op (m : Chan) : SameSound peaks (chan4Op s m) (chan4Op t m) := by
  have hist := h.slot1 m
  unfold Machine.chan4Op
  rw [slot1_eq s, slot1_eq t, h.shiftedCells]
  dsimp only
  rw [h.con, h.con]
  split <;> simp only [topology0, topology1, topology2, topology3, hist.slotN]
  · exact hist.addOut _ _
  · exact (hist.addOut _ _).addOut _ _
  · exact (hist.addOut _ _).addOut _ _
  · exact ((hist.addOut _ _).addOut _ _).addOut _ _

theorem instruments : bassOut t = bassOut s ∧ hatOut t = hatOut s ∧ snareOut t = snareOut s ∧ tomOut t = tomOut s ∧
    cymbalOut t = cymbalOut s := by
  refine ⟨funext fun s1 => ?_, ?_, ?_, h.slotN _ _, ?_⟩
  · rw [bassOut, h.con, h.slotN, bassOut]
  · simp only [hatOut, rhythmC1, rhythmC2, noiseBit, h.opAt, h.op, h.gens]
  · simp only [snareOut, rhythmC1, noiseBit, h.opAt, h.op, h.gens]
  · simp only [cymbalOut, rhythmC1, rhythmC2, h.opAt, h.op]

theorem rhythmStep : SameSound peaks (rhythmStep s) (rhythmStep t) := by
  obtain ⟨bass, hat, snare, tom, cymbal⟩ := h.instruments
  rw [rhythmStep_eq, rhythmStep_eq, bassDrum_eq, bassDrum_eq, bass, hat, snare, tom, cymbal, h.fbCells]
  exact (((((h.slot1 6).addOut _ _).addOut _ _).addOut _ _).addOut _ _).addOut _ _

theorem chanStep (c : Chan) : SameSound peaks (chanStep s c) (chanStep t c) := by
  unfold Machine.chanStep
  rw [h.role]
  split
  · split
    · exact h.rhythmStep
    · exact h
  · exact h.chan4Op c
  · exact h
  · exact h.chan2Op c

/-! ### The eight steps -/

theorem lfoAdvance : SameSound peaks (lfoAdvance s) (lfoAdvance t) := h.of_gens (by rw [h.cfg, h.gens])

theorem clearOut : SameSound peaks (clearOut s) (clearOut t) := h.mapChans fun _ _ => rfl

theorem foldl (l : List Chan) : SameSound peaks (l.foldl Machine.chanStep s) (l.foldl Machine.chanStep t) := by
  induction l generalizing s t with
  | nil => exact h
  | cons c l ih => exact ih (h.chanStep c)

theorem channelsStep : SameSound peaks (channelsStep s) (channelsStep t) := by
  unfold Machine.channelsStep
  rw [h.chanList]
  exact h.foldl _

theorem busSum {on : Channel → Bool} (routes : ∀ ch, on ch.withoutPeak = on ch) : busSum t on = busSum s on := by
  have out : ∀ c, (t.chan c).chanout = (s.chan c).chanout := h.bus
  unfold Machine.busSum
  simp only [h.chanList, h.reads on routes, out]

theorem mixStep : SameSound peaks (mixStep s) (mixStep t) := by
  have mixes : (Machine.mixStep t).mixL = (Machine.mixStep s).mixL ∧
      (Machine.mixStep t).mixR = (Machine.mixStep s).mixR := by
    have all : Machine.busSum t (fun _ => true) = Machine.busSum s fun _ => true := h.busSum fun _ => rfl
    have left : Machine.busSum t (·.panL) = Machine.busSum s (·.panL) := h.busSum fun _ => rfl
    have right : Machine.busSum t (·.panR) = Machine.busSum s (·.panR) := h.busSum fun _ => rfl
    unfold Machine.mixStep
    rw [h.cfg, all, left, right]
    cases s.cfg.variant <;> exact ⟨rfl, rfl⟩
  rw [mixStep_frame s, mixStep_frame t]
  exact h.of_mix mixes.1 mixes.2

theorem peakStep : SameSound peaks (peakStep s) (peakStep t) := h.mapChans fun _ _ => rfl

theorem egTick : SameSound peaks (egTick s) (egTick t) := by
  have counted : SameSound peaks (egCounted s) (egCounted t) := h.of_gens (by rw [h.gens])
  rw [egTick_eq, egTick_eq]
  simp only [counted.egStep]
  exact counted.mapChans fun _ _ => rfl

theorem egAdvance : SameSound peaks (egAdvance s) (egAdvance t) := by
  have rounds : ∀ n {u v : State}, SameSound peaks u v →
      SameSound peaks (Nat.repeat Machine.egTick n u) (Nat.repeat Machine.egTick n v) := fun n _ _ k => by
    induction n with
    | zero => exact k
    | succ n ih => exact ih.egTick
  have count : egRounds t = egRounds s := by rw [egRounds, egRounds, h.cfg, h.gens]
  have left : egLeft t = egLeft s := by rw [egLeft, egLeft, h.cfg, h.gens]
  have start : SameSound peaks (s.withEgTimer (egLeft s)) (t.withEgTimer (egLeft t)) :=
    h.of_gens (by rw [left, h.gens])
  rw [egAdvance_eq, egAdvance_eq, count]
  exact rounds _ start

theorem phaseAdvance : SameSound peaks (phaseAdvance s) (phaseAdvance t) := by
  unfold Machine.phaseAdvance
  simp only [h.phaseStep]
  exact h.mapChans fun _ _ => rfl

theorem noiseAdvance : SameSound peaks (noiseAdvance s) (noiseAdvance t) := h.of_gens (by rw [h.cfg, h.gens])

theorem tickSteps : SameSound peaks (tickSteps s) (tickSteps t) :=
  h.lfoAdvance.clearOut.channelsStep.mixStep.peakStep.egAdvance.phaseAdvance.noiseAdvance

end

end SameSound

end Sys2Proof.Machine
end

section
/-! The statement about peaks and timers. -/

namespace Sys2Proof.Machine

/-- A tick of a state without peaks leaves the same but for the peaks. -/
theorem tickSteps_withoutPeaks (s : State) :
    (tickSteps s.withoutPeaks).withoutPeaks = (tickSteps s).withoutPeaks := by
  have sound := (SameSound.of_withoutPeaks s).tickSteps
  have frame := (TickFrame.tickSteps s).same
  have frame' := (TickFrame.tickSteps s.withoutPeaks).same
  generalize tickSteps s = t, tickSteps s.withoutPeaks = u at sound frame frame'
  have chans : u.withoutPeaks.chans = t.withoutPeaks.chans := chans_ext fun c => by
    rw [withoutPeaks_chan, withoutPeaks_chan, sound.chan]
  change { u with chans := u.withoutPeaks.chans } = { t with chans := t.withoutPeaks.chans }
  rw [chans, frame', frame, sound.gens, sound.mixL, sound.mixR]
  rfl

/-- A tick of a state without its timers leaves the same but for the timers. -/
theorem tickSteps_withoutTimers (s : State) : tickSteps s.withoutTimers = (tickSteps s).withoutTimers := by
  have sound := (SameSound.of_withoutTimers True s).tickSteps
  have frame := (TickFrame.tickSteps s).same
  have frame' := (TickFrame.tickSteps s.withoutTimers).same
  generalize tickSteps s = t, tickSteps s.withoutTimers = u at sound frame frame'
  have chans : u.chans = t.chans := chans_ext (sound.chan_of_peaks trivial)
  rw [frame', frame, sound.gens, sound.mixL, sound.mixR, chans]
  rfl

/-- Settles O53: no step of a tick reads a peak or what belongs to the timers. -/
theorem peaksAndTimersDoNotAffectTheSound : Obligations.PeaksAndTimersDoNotAffectTheSound := by
  intro s live
  have frame := (TickFrame.tickSteps s.begin).same
  refine ⟨tickSteps s.begin, exec_live live nofun,
    ⟨tickSteps s.begin.withoutPeaks, exec_live live nofun, tickSteps_withoutPeaks s.begin⟩, ?_, by rw [frame]; rfl,
    by rw [frame]; rfl⟩
  rw [← tickSteps_withoutTimers]
  exact exec_live live nofun

end Sys2Proof.Machine
end

section
/-! SUPPORT. What a timer expiry does (60_exceptions.md R364, R369): the flag and the line it sets, and the CSM mechanism on
one operator; and what a read of a port answers (60_exceptions.md R363). -/

namespace Sys2Proof.Machine

/-! ### Setting a timer flag -/

/-- A timer flag and the line raised unless the flag is masked, with the event of a line that was low. -/
def State.raised (s : State) (f : Byte) (masked : Bool) : State := { s with
  status := if masked then s.status else s.status ||| (f ||| 0x80)
  out := { s.out with events := s.out.events ++
    if s.irq = false ∧ masked = false then [.irqChanged true] else [] } }

/-- What is left of a timer flag under the masks (60_exceptions.md R364). -/
theorem flag_under_masks : ∀ mt1 mt2 : Bool,
    flagTimer1 &&& ~~~clearMask mt1 mt2 &&& flagsBoth = (if mt1 then 0#8 else flagTimer1) ∧
      flagTimer2 &&& ~~~clearMask mt1 mt2 &&& flagsBoth = (if mt2 then 0#8 else flagTimer2) := by
  decide

/-- In a consistent status byte no flag is set while the line is low, and a line that is high is not raised again. -/
theorem okBytes_line : ∀ st ∈ okBytes, ¬(st.getLsbD 7 = false ∧ st &&& flagsBoth ≠ 0) ∧
    (st.getLsbD 7 = true → st = st ||| 0x80) := by
  decide

/-- Setting the flag of a timer, with its mask bit, in a consistent status byte. -/
theorem irqSet_of_statusOk {s : State} {f : Byte} {masked : Bool} (h : statusOk s.status = true)
    (timer : f = flagTimer1 ∧ masked = s.glob.mt1 ∨ f = flagTimer2 ∧ masked = s.glob.mt2) :
    irqSet f s = s.raised f masked := by
  obtain ⟨settled, high⟩ := okBytes_line _ ((statusOk_iff _).mp h)
  obtain ⟨one, two⟩ := flag_under_masks s.glob.mt1 s.glob.mt2
  have seen : f &&& ~~~maskBits s.glob &&& flagsBoth = if masked then 0#8 else f := by
    rcases timer with ⟨rfl, rfl⟩ | ⟨rfl, rfl⟩
    · exact one
    · exact two
  have flag : f.getLsbD 7 = false ∧ f &&& flagsBoth ≠ 0 := by
    rcases timer with ⟨rfl, -⟩ | ⟨rfl, -⟩ <;> decide
  unfold irqSet
  dsimp only
  rw [seen]
  cases masked with
  | true =>
    rw [if_pos rfl, BitVec.or_zero, if_neg settled]
    simp [State.raised]
  | false =>
    have line : (s.status ||| f).getLsbD 7 = s.irq := by
      rw [BitVec.getLsbD_or, flag.1, Bool.or_false]; rfl
    have flagged : (s.status ||| f) &&& flagsBoth ≠ 0 := fun clear => flag.2 (by
      rw [BitVec.and_or_distrib_right] at clear
      exact (BitVec.or_eq_zero_iff.mp clear).2)
    rw [if_neg Bool.false_ne_true, line]
    cases low : s.irq with
    | false =>
      rw [if_pos ⟨rfl, flagged⟩, BitVec.or_assoc, State.raised, low]
      rfl
    | true =>
      have kept : s.status ||| (f ||| 0x80) = s.status ||| f := by
        rw [BitVec.or_comm f, ← BitVec.or_assoc, ← high low]
      rw [if_neg fun e => Bool.noConfusion e.1, State.raised, kept, low]
      simp

/-- After a flag was raised the line is high if it was, and whenever the flag is not masked. -/
theorem raised_irq (f : Byte) (masked : Bool) (s : State) : (s.raised f masked).irq = (s.irq || !masked) := by
  cases masked
  · change (s.status ||| (f ||| 0x80)).getLsbD 7 = (s.irq || true)
    rw [BitVec.getLsbD_or, BitVec.getLsbD_or, Bool.or_true]
    exact (congrArg _ (Bool.or_true _)).trans (Bool.or_true _)
  · exact (Bool.or_false _).symm

/-- The answer of an expiry: the flag raised, then operators changed at most, then the reload event and the line. -/
theorem answer_of_raised {s t : State} {f : Byte} {masked : Bool} (keys : OpsFrame (s.begin.raised f masked) t)
    (e : Emitted) :
    (t.emit e).returnsIrq = { s with
      status := if masked then s.status else s.status ||| (f ||| 0x80)
      out := { result := .irq (s.irq || !masked), events :=
        (if s.irq = false ∧ masked = false then [.irqChanged true] else []) ++ [e] }
      chans := t.chans } := by
  have irq : t.irq = (s.irq || !masked) := by
    rw [State.irq, keys.same]
    exact raised_irq f masked s.begin
  change { t with out := { result := .irq t.irq, events := t.out.events ++ [e] } } = _
  rw [irq, keys.same]
  rfl

/-! ### The CSM mechanism -/

/-- Keyed on and at once off through the bit of the CSM mechanism, which is clear: an operator that no source holds restarts
and is released, any other stays. -/
theorem keyOff_keyOn_csm {p : Op} (rest : p.key.getLsbD 2 = false) :
    keyOff keyBitCsm (keyOn keyBitCsm p) = if p.key = 0 then { p with cnt := 0, phase := .rel } else p := by
  have mask : ∀ k : BitVec 3, k.getLsbD 2 = false →
      (k ||| keyBitCsm) &&& ~~~keyBitCsm = k ∧ k ||| keyBitCsm ≠ 0 := by decide
  obtain ⟨cleared, held⟩ := mask p.key rest
  rw [keyOff_spec, keyOn_spec]
  dsimp only
  rw [cleared]
  by_cases free : p.key = 0
  · rw [if_pos free, if_pos free, if_pos free, if_pos ⟨held, free, nofun⟩]
  · rw [if_neg free, if_neg free, if_neg free, if_neg fun e => free e.2.1]

theorem OpsFrame.csmKeys (s : State) : OpsFrame s (csmKeys s) := by
  unfold Machine.csmKeys
  split
  · refine ⟨mapChans_frame _ _, fun c => ?_⟩
    rw [mapChans_chan]
    split <;> rfl
  · exact refl s

/-- The CSM mechanism, which V1 alone has, where no source holds its key bit. -/
theorem csmKeys_op_of_rest {s : State} {o : OpRef} (has : s.cfg.hasCsm = (s.cfg.variant == .v1))
    (rest : (s.op o).key.getLsbD 2 = false) :
    (csmKeys s).op o =
      if s.cfg.variant = .v1 ∧ s.glob.csm = true ∧ s.hasChan o.ch = true ∧ (s.op o).key = 0 then
        { s.op o with cnt := 0, phase := .rel }
      else s.op o := by
  have on : (s.cfg.hasCsm && s.glob.csm) = true ↔ s.cfg.variant = .v1 ∧ s.glob.csm = true := by
    rw [has, Bool.and_eq_true_iff, beq_iff_eq]
  by_cases csm : s.cfg.variant = .v1 ∧ s.glob.csm = true
  · have keyed : (csmKeys s).op o =
        if s.hasChan o.ch = true then keyOff keyBitCsm (keyOn keyBitCsm (s.op o)) else s.op o := by
      rw [csmKeys, if_pos (on.mpr csm), State.op, mapChans_chan]
      split
      · exact mapOps_op _ _ _
      · rfl
    rw [keyed, keyOff_keyOn_csm rest]
    simp only [csm, true_and, ite_and]
  · rw [csmKeys, if_neg (on.not.mpr csm), if_neg fun e => csm ⟨e.1, e.2.1⟩]

/-! ### Reads -/

/-- The status byte as it is read, with the start bits below it as a number where they show. -/
theorem statusRead_eq (s : State) :
    statusRead s = if s.cfg.statusShowsSt = true then
      s.status ||| BitVec.ofNat 8 (2 * s.glob.st2.toNat + s.glob.st1.toNat) else s.status := by
  have start : ∀ a b : Bool, (0#6 ++ bit a ++ bit b : Byte) = BitVec.ofNat 8 (2 * a.toNat + b.toNat) := by decide
  rw [statusRead, start]

/-- In V2 a port number is its own port. -/
theorem portOf_eq (x : Variant) (p : BitVec 2) : portOf x p = if x = .v1 then p.toNat % 2 else p.toNat := by
  cases x
  · rfl
  · exact Nat.mod_eq_of_lt p.isLt

end Sys2Proof.Machine
end

section
/-! The statements about timer expiries and reads (60_exceptions.md). -/

namespace Sys2Proof.Machine

/-- Settles O28: the flag and the line first, then in V1 the CSM mechanism on the operators, which are still as before. -/
theorem timerExpiriesSetFlagsAndReload : Obligations.TimerExpiriesSetFlagsAndReload := by
  intro s live defaults ok rest
  obtain ⟨-, csm, -⟩ := (variantDefaults_iff s.cfg).mp defaults
  have flag1 : irqSet flagTimer1 s.begin = s.begin.raised flagTimer1 s.glob.mt1 :=
    irqSet_of_statusOk ok (.inl ⟨rfl, rfl⟩)
  have flag2 : irqSet flagTimer2 s.begin = s.begin.raised flagTimer2 s.glob.mt2 :=
    irqSet_of_statusOk ok (.inr ⟨rfl, rfl⟩)
  constructor
  · have keys := OpsFrame.csmKeys (s.begin.raised flagTimer1 s.glob.mt1)
    refine ⟨body .texp0 s.begin, exec_live live nofun, ?_⟩
    dsimp only [body]
    rw [flag1, keys.glob]
    exact ⟨answer_of_raised keys _, keys.own, fun o => csmKeys_op_of_rest csm (rest o)⟩
  · rw [exec_live (i := .texp1) live nofun]
    dsimp only [body]
    rw [flag2, answer_of_raised (.refl _)]
    rfl

/-- Settles O12: a read only answers, with the status byte as it is read or 0. -/
theorem portReadsReturnTheStatus : Obligations.PortReadsReturnTheStatus := by
  intro s p live
  dsimp only
  rw [← statusRead_eq, ← portOf_eq]
  exact exec_live live nofun

end Sys2Proof.Machine
end

section
/-! SUPPORT. Runs, and what `RESET` keeps of the state before it: the configuration alone (70_reset_and_hazards.md R403). -/

namespace Sys2Proof.Machine

/-! ### Runs -/

/-- A run of one step more completes when its first step does and the rest of the run from there. -/
theorem run_succ_next {M : Host.Core} {n : Nat} {s u : M.State} :
    M.run (n + 1) s = .next u ↔ ∃ t, M.step s = .next t ∧ M.run n t = .next u := by
  constructor
  · intro run
    rw [Host.Core.run] at run
    split at run
    · next t taken => exact ⟨t, taken, run⟩
    · cases run
    · cases run
  · rintro ⟨t, taken, run⟩
    exact (run_succ_of_step taken).trans run

/-- What every step that completes keeps, every run that completes keeps. -/
theorem run_keeps {M : Host.Core} {P : M.State → Prop} (keep : ∀ s t, M.step s = .next t → P s → P t)
    {n : Nat} {s u : M.State} (run : M.run n s = .next u) (h : P s) : P u := by
  induction n generalizing s with
  | zero => cases run; exact h
  | succ n ih =>
    obtain ⟨t, taken, rest⟩ := run_succ_next.mp run
    exact ih rest (keep s t taken h)

theorem step_cfg {s t : State} (taken : step s = .next t) : t.cfg = s.cfg := by
  cases input : s.input with
  | nil =>
    rw [step_nil input, Host.Outcome.next.injEq] at taken
    rw [taken]
  | cons c rest =>
    rw [step_cons input] at taken
    exact configurationNeverChanges { s with input := rest } t _ taken

theorem run_cfg {n : Nat} {s u : State} (run : core.run n s = .next u) : u.cfg = s.cfg :=
  run_keeps (M := core) (P := fun t => t.cfg = s.cfg) (fun _ _ taken same => (step_cfg taken).trans same) run rfl

/-! ### The state that `RESET` leaves -/

/-- Of the state before it, `RESET` leaves the configuration and what is no state of the instance: the commands still
waiting and the outputs. -/
theorem afterReset_of_cfg {s u : State} (same : u.cfg = s.cfg) :
    afterReset u = { afterReset s with input := (afterReset u).input, out := (afterReset u).out } := by
  unfold afterReset
  rw [same]

theorem afterReset_chan (s : State) (c : Chan) : (afterReset s).chan c = Channel.reset := resetOf_chan s.cfg c

theorem afterReset_op (s : State) (o : OpRef) : (afterReset s).op o = Op.reset := resetOf_op s.cfg o

/-- The line falls, timer 2 stops, timer 1 stops, each only if there is something to announce; the first `RESET` is
silent. -/
theorem afterReset_out (s : State) : (afterReset s).out = { result := .none, events := if s.live = true then
    (if s.status.getLsbD 7 = true then [.irqChanged false] else []) ++
    (if s.glob.st2 = true then [.timerReload 1 0] else []) ++
    (if s.glob.st1 = true then [.timerReload 0 0] else []) else [] } := rfl

end Sys2Proof.Machine
end

section
/-! The statements about `RESET` (70_reset_and_hazards.md). -/

namespace Sys2Proof.Machine

/-- Settles O55: the end state of `RESET` depends on the configuration alone, and no run changes that. -/
theorem resetForgetsEveryRun : Obligations.ResetForgetsEveryRun := fun _ s u run =>
  ⟨afterReset s, afterReset u, exec_reset s, exec_reset u, afterReset_of_cfg (run_cfg run)⟩

/-- Settles O54: the outputs depend on the state before; everything else is the table of R400, for the channels and their
operators one by one. -/
theorem resetLeavesTheResetValues : Obligations.ResetLeavesTheResetValues := by
  intro s
  refine ⟨afterReset s, exec_reset s, rfl, afterReset_out s, rfl, rfl, rfl, rfl, rfl, rfl, afterReset_op s, fun c => ?_⟩
  rw [afterReset_chan]
  rfl

end Sys2Proof.Machine
end
